-- ==== Sys2Proof/Word.lean ====
section
/-! DEFINITION. The word types of the part: bytes and station addresses. -/

namespace Sys2Proof

/-- One byte of a frame, a table entry or the serial memory. -/
abbrev Byte := BitVec 8

/-- A station address: a 48-bit Ethernet MAC address (00, section 7). -/
abbrev MacAddress := BitVec 48

end Sys2Proof
end

