-- ==== Sys2Proof/Syntax.lean ====
section
/-! DEFINITION. The commands the part takes: one constructor of `Instr` per row of spec/opcode_table.json.
Every command carries `dt`, the milliseconds that pass between the command taken before it and this one
(DESIGN CHOICE, log entry 1). The table gives no row any bits. -/

namespace Sys2Proof

/-- The two ports (00, section 2). -/
inductive Port where
  /-- the port that faces the plant network -/
  | net
  /-- the port that faces the controllers -/
  | cell
  deriving DecidableEq, Repr

/-- A management request frame as it arrives (R145, 11 section 11.1): addressed to the part's own station
address, of Payload Type 88B6H, with the Code of its row and a right FCS (log entry 16). -/
structure Request where
  /-- the port of arrival (R4) -/
  port : Port
  /-- the source station address of the frame -/
  source : MacAddress
  /-- the four bytes of the frame's VLAN tag, if it has one (R10) -/
  vlanTag : Option (BitVec 32)
  /-- Version, byte 0 of the request header -/
  version : Byte
  /-- Tag, bytes 2 and 3 -/
  tag : BitVec 16
  /-- Token, bytes 4 to 11 -/
  token : BitVec 64
  /-- Payload Length, bytes 12 and 13 -/
  payloadLength : BitVec 16
  /-- every byte between the 14-byte header and the FCS, padding included -/
  payload : List Byte
  deriving DecidableEq, Repr

/-- The commands: the rows of spec/opcode_table.json, in its order. -/
inductive Instr where
  /-- RESET_N is driven low (R164). -/
  | resetNAssert (dt : Nat)
  /-- RESET_N rises (R164). -/
  | resetNRelease (dt : Nat)
  /-- The Start-up Loader ends STARTING (R168); `memoryAnswers` is false for a serial memory that does not
  answer and so reads as all bytes FFH (R165). -/
  | startingEnd (dt : Nat) (memoryAnswers : Bool)
  /-- A PHY link indication takes the level `high` (R1). -/
  | linkChanged (dt : Nat) (port : Port) (high : Bool)
  /-- The last byte of a frame, FCS included, has been received at `port` (R3). -/
  | frameArrival (dt : Nat) (port : Port) (frame : List Byte)
  /-- The frame a transmitter is sending has left (R8). -/
  | transmissionComplete (dt : Nat) (port : Port)
  /-- The Deadline of an Outstanding entry is reached (R80). -/
  | responseTimeout (dt : Nat) (slot : Fin 16) (tag : BitVec 32)
  /-- The window deadline of a slot is reached (R93). -/
  | windowExpiry (dt : Nat) (slot : Fin 16)
  /-- The CHG_PERMIT pin takes the level `high` (R98). -/
  | chgPermitPinChange (dt : Nat) (high : Bool)
  /-- The 20 ms stability period of the permit filter ends (R98). -/
  | permitFilterExpiry (dt : Nat)
  /-- The interval timer expires (R102). -/
  | intervalExpiry (dt : Nat)
  /-- The Idle Deadline of a Download Record is reached (R123). -/
  | idleExpiry (dt : Nat) (downloadSlot : Fin 4)
  /-- The end time of the token lockout is reached (R150). -/
  | lockoutEnd (dt : Nat)
  /-- The Loader has finished writing and reading back (R170); `misread` lists the cells of the header and body
  that read back as another byte than the one written (none: the read-back matches). -/
  | saveEnd (dt : Nat) (misread : List (Nat × Byte))
  /-- 4000 ms have passed since a SAVE was accepted (R170). -/
  | saveTimeout (dt : Nat)
  | identify (dt : Nat) (request : Request)
  | readStatus (dt : Nat) (request : Request)
  | readCounters (dt : Nat) (request : Request)
  | tableRead (dt : Nat) (request : Request)
  | tableWrite (dt : Nat) (request : Request)
  | bankCopy (dt : Nat) (request : Request)
  | commit (dt : Nat) (request : Request)
  | lockPolicy (dt : Nat) (request : Request)
  | setMode (dt : Nat) (request : Request)
  | openWindow (dt : Nat) (request : Request)
  | closeWindow (dt : Nat) (request : Request)
  | thaw (dt : Nat) (request : Request)
  | fetchEvents (dt : Nat) (request : Request)
  | readShadow (dt : Nat) (request : Request)
  | forgetShadow (dt : Nat) (request : Request)
  | readLoads (dt : Nat) (request : Request)
  | setNoticeDestination (dt : Nat) (request : Request)
  | setSettings (dt : Nat) (request : Request)
  | save (dt : Nat) (request : Request)
  | restart (dt : Nat) (request : Request)
  deriving DecidableEq, Repr

end Sys2Proof
end

