-- ==== Sys2Proof/Decode.lean ====
section
/-! DEFINITION. The part has no instruction decoder, and no row of spec/opcode_table.json has bits: a word spells no
command. -/

namespace Sys2Proof

/-- The command a word spells by the table's bits: none, because the table gives no row any bits. -/
def decodeTableWord (_nbits _w : Nat) : Option Instr := none

end Sys2Proof
end

