-- ==== Sys2Proof/Machine/Bytes.lean ====
section
/-! DEFINITION. Runs of bytes: reading and writing numbers in both byte orders, cutting and splicing. -/

namespace Sys2Proof.Machine

open Sys2Proof

/-- The bytes `off` to `off + n - 1` of a run. -/
def slice (l : List Byte) (off n : Nat) : List Byte := (l.drop off).take n

/-- The byte at position `i`; 00H beyond the run. -/
def byteAt (l : List Byte) (i : Nat) : Byte := l.getD i 0

/-- The number a run spells with its first byte the most significant (R21, BIG). -/
def beNat (l : List Byte) : Nat := l.foldl (fun a b => a * 256 + b.toNat) 0

/-- The number a run spells with its first byte the least significant (R21, LITTLE). -/
def leNat (l : List Byte) : Nat := l.foldr (fun b a => b.toNat + a * 256) 0

/-- The low `n` bytes of a number, most significant first. -/
def beBytes : Nat → Nat → List Byte
  | 0, _ => []
  | n + 1, v => BitVec.ofNat 8 (v / 256 ^ n) :: beBytes n v

/-- The low `n` bytes of a number, least significant first. -/
def leBytes (n v : Nat) : List Byte := (beBytes n v).reverse

/-- The 16-bit big-endian field at `i`. -/
def be16At (l : List Byte) (i : Nat) : BitVec 16 := BitVec.ofNat 16 (beNat (slice l i 2))

/-- The 32-bit big-endian field at `i`. -/
def be32At (l : List Byte) (i : Nat) : BitVec 32 := BitVec.ofNat 32 (beNat (slice l i 4))

/-- The 48-bit big-endian field at `i`. -/
def be48At (l : List Byte) (i : Nat) : BitVec 48 := BitVec.ofNat 48 (beNat (slice l i 6))

/-- The 64-bit big-endian field at `i`. -/
def be64At (l : List Byte) (i : Nat) : BitVec 64 := BitVec.ofNat 64 (beNat (slice l i 8))

/-- `new` put in place of the bytes from `off` on; the length stays. -/
def splice (l : List Byte) (off : Nat) (new : List Byte) : List Byte :=
  l.take off ++ (new.take (l.length - off) ++ l.drop (off + new.length))

/-- 01H for YES, ON or SET and 00H for NO, OFF or CLEAR (11). -/
def boolByte (b : Bool) : Byte := if b then 1 else 0

/-- `n` zero bytes: reserved bytes and absent fields as they are sent (R173). -/
def zeros (n : Nat) : List Byte := List.replicate n 0

/-- A count in 32 bits that goes up by `n` and stays at FFFFFFFFH (R9, R54, R151). -/
def satAdd (c : BitVec 32) (n : Nat) : BitVec 32 :=
  if c.toNat + n < 0xFFFFFFFF then BitVec.ofNat 32 (c.toNat + n) else 0xFFFFFFFF

/-- A group address: bit 0 of its first byte is 1 (R10). -/
def isGroup (a : MacAddress) : Bool := a.getLsbD 40

/-- A mask of the 16 slots: bit n stands for slot n (11). -/
def maskHas (m : BitVec 16) (i : Fin 16) : Bool := m.getLsbD i

/-- The slots 0 to 15 in ascending order. -/
def allSlots : List (Fin 16) := List.finRange 16

/-- The mask whose members are the slots of a list. -/
def maskOf (l : List (Fin 16)) : BitVec 16 := l.foldl (fun m i => m ||| (1#16 <<< i.val)) 0

/-- A difference of milliseconds in whole seconds, rounded up (R109, R154). -/
def secondsUp (ms : Nat) : Nat := (ms + 999) / 1000

end Sys2Proof.Machine
end

