-- ==== Sys2Proof/Machine/State.lean ====
section
/-! DEFINITION. The state of the part as plain data: every table, queue, counter, timer and pin the spec gives it,
the ways a step can stop, and the state right after reset. INVENTORY.md lists the fields with their rules. -/

namespace Sys2Proof.Machine

open Sys2Proof

/-! ### Policy tables (08 R129, 11 section 11.4): every field as stored (R174), listed value or not -/

/-- A Profile entry (R19). -/
structure Profile where
  used : Byte := 0
  kind : Byte := 0
  matchValue : BitVec 16 := 0
  byteOrder : Byte := 0
  codeWidth : Byte := 0
  tagWidth : Byte := 0
  objectWidth : Byte := 0
  segmentFields : Byte := 0
  firstSegment : Byte := 0
  unlistedClass : Byte := 0
  okValue : Byte := 0
  responseTimeout : Byte := 0
  loadIdleLimit : Byte := 0
  codeOffset : BitVec 16 := 0
  tagOffset : BitVec 16 := 0
  objectOffset : BitVec 16 := 0
  valueOffset : BitVec 16 := 0
  statusOffset : BitVec 16 := 0
  responseValueOffset : BitVec 16 := 0
  segmentNumberOffset : BitVec 16 := 0
  segmentLengthOffset : BitVec 16 := 0
  segmentPayloadOffset : BitVec 16 := 0
  deriving DecidableEq, Repr

/-- A Code Map entry (R23). -/
structure CodeMapEntry where
  used : Byte := 0
  cls : Byte := 0
  code : BitVec 16 := 0
  deriving DecidableEq, Repr

/-- A Controllers entry (R36). -/
structure Controller where
  used : Byte := 0
  profile : Byte := 0
  address : MacAddress := 0
  chainHead : BitVec 16 := 0
  unknownTraffic : Byte := 0
  imageCheck : Byte := 0
  scoreWindow : Byte := 0
  freezeThreshold : Byte := 0
  deriving DecidableEq, Repr

/-- A Sources entry (R37). -/
structure Source where
  used : Byte := 0
  groups : Byte := 0
  address : MacAddress := 0
  deriving DecidableEq, Repr

/-- A Rules entry (R38). -/
structure Rule where
  used : Byte := 0
  action : Byte := 0
  classSet : Byte := 0
  groups : Byte := 0
  next : BitVec 16 := 0
  valueType : Byte := 0
  outOfBand : Byte := 0
  freeInWindow : Byte := 0
  objectFirst : BitVec 32 := 0
  objectLast : BitVec 32 := 0
  low : BitVec 32 := 0
  high : BitVec 32 := 0
  step : BitVec 32 := 0
  grid : BitVec 32 := 0
  deriving DecidableEq, Repr

/-- An Approved Images entry (R111); the label's first character is its most significant byte. -/
structure ApprovedImage where
  used : Byte := 0
  mask : BitVec 16 := 0
  length : BitVec 32 := 0
  crc : BitVec 32 := 0
  label : BitVec 64 := 0
  deriving DecidableEq, Repr

/-- One policy bank: the seven tables of R129. An unused bank has every entry unused and Common Head END. -/
structure Bank where
  commonHead : BitVec 16 := 0xFFFF
  profiles : Vector Profile 8 := Vector.replicate 8 {}
  codeMap : Vector CodeMapEntry 256 := Vector.replicate 256 {}
  controllers : Vector Controller 16 := Vector.replicate 16 {}
  sources : Vector Source 32 := Vector.replicate 32 {}
  rules : Vector Rule 256 := Vector.replicate 256 {}
  images : Vector ApprovedImage 32 := Vector.replicate 32 {}
  deriving DecidableEq, Repr

/-- The names of the two banks (R129). -/
inductive BankId where
  | a
  | b
  deriving DecidableEq, Repr

/-! ### Names the rules use -/

/-- The seven command classes (R22), in the order of their numbers (11). -/
inductive CommandClass where
  | read
  | writeValue
  | writeOther
  | control
  | loadBegin
  | loadSegment
  | loadActivate
  deriving DecidableEq, Repr

/-- The six Value Types (R57), in the order of their numbers (11). -/
inductive ValueType where
  | unsigned8
  | signed8
  | unsigned16
  | signed16
  | unsigned32
  | signed32
  deriving DecidableEq, Repr

/-- The device modes (R156, R164). -/
inductive Mode where
  | starting
  | passive
  | enforce
  deriving DecidableEq, Repr

/-- The start outcomes (R165). -/
inductive StartOutcome where
  | goodImage
  | noImage
  | badImage
  deriving DecidableEq, Repr

/-- The event kinds (11 section 11.5). -/
inductive EventKind where
  | denied
  | valueClamped
  | valueRefused
  | malformed
  | trackFull
  | wouldDeny
  | wouldClamp
  | wouldRefuse
  | responseNegative
  | responseTimeout
  | windowOpened
  | windowClosed
  | frozen
  | thawed
  | loadStarted
  | loadAborted
  | loadOrphan
  | loadNoSlot
  | loadRejected
  | loadAccepted
  | loadFailed
  | committed
  | modeChanged
  | policyLocked
  | linkChanged
  | tokenLockout
  | saveDone
  | saveFailed
  | started
  deriving DecidableEq, Repr

/-- The event reasons (11 section 11.5), one code space for all kinds. -/
inductive Reason where
  | rule
  | noWindow
  | default
  | frozen
  | unguarded
  | outOfBand
  | noAdmissible
  | fragment
  | short
  | badChecksum
  | segmentLength
  | broadcastCommand
  | trackFull
  | outOfOrder
  | substituted
  | sourceChanged
  | retries
  | idle
  | window
  | link
  | policy
  | restarted
  | tooLong
  | refusedByController
  | loadNoSlot
  | loadOrphan
  | loadRejected
  | request
  | expired
  | permit
  | goodImage
  | noImage
  | badImage
  deriving DecidableEq, Repr

/-- An event record (R160). An absent optional field is `none`. -/
structure EventRecord where
  time : Nat
  kind : EventKind
  reason : Option Reason := none
  slot : Option (Fin 16) := none
  rule : Option (Fin 256) := none
  source : Option MacAddress := none
  object : Option (BitVec 32) := none
  requested : Option Int := none
  forwarded : Option Int := none
  extra : Option Nat := none
  deriving DecidableEq, Repr

/-! ### Port Units (01) -/

/-- What a reply frame is (R7): the part uses the report on a RESTART's response alone (R147, R172). -/
inductive ReplyKind where
  | response
  | restartResponse
  | notice
  deriving DecidableEq, Repr

/-- A frame of a reply queue: its bytes as they will be sent, FCS included, and what it is. -/
structure Reply where
  kind : ReplyKind
  frame : List Byte
  deriving DecidableEq, Repr

/-- A transmitter (R8): FREE, or BUSY with one frame of the queue it was granted from. -/
inductive Transmitter where
  | free
  | forward (frame : List Byte)
  | reply (r : Reply)
  deriving DecidableEq, Repr

/-- The two queues an arbiter grants (R8). -/
inductive Grant where
  | forward
  | reply
  deriving DecidableEq, Repr

/-- One Port Unit (01, table of chapter 1). Queued frames are held as they will be sent, FCS included. -/
structure PortState where
  up : Bool := false
  forwardQueue : List (List Byte) := []
  replyQueue : List Reply := []
  transmitter : Transmitter := .free
  lastGrant : Grant := .forward
  received : BitVec 32 := 0
  forwarded : BitVec 32 := 0
  queueFullDrops : BitVec 32 := 0
  formatDrops : BitVec 32 := 0
  guardDrops : BitVec 32 := 0
  linkDrops : BitVec 32 := 0
  deriving DecidableEq, Repr

/-! ### Live state of the other blocks -/

/-- The four decision counters of a slot (R54). -/
structure DecisionCounters where
  permitted : BitVec 32 := 0
  denied : BitVec 32 := 0
  clamped : BitVec 32 := 0
  refused : BitVec 32 := 0
  deriving DecidableEq, Repr

/-- The kinds of Outstanding entries (R74). -/
inductive EntryKind where
  | write
  | read
  | begin
  | segment
  | activate
  deriving DecidableEq, Repr

/-- An Outstanding entry (R74). -/
structure Outstanding where
  slot : Fin 16
  address : MacAddress
  tag : BitVec 32
  kind : EntryKind
  object : Option (BitVec 32) := none
  forwarded : Option Int := none
  valueType : Option ValueType := none
  downloadSlot : Option (Fin 4) := none
  deadline : Nat
  deriving DecidableEq, Repr

/-- Where a Shadow Store value came from (R86). -/
inductive Origin where
  | confirmed
  | learned
  deriving DecidableEq, Repr

/-- A Shadow Store entry (R86). -/
structure ShadowEntry where
  slot : Fin 16
  object : BitVec 32
  value : Int
  origin : Origin
  lastUpdate : Nat
  deriving DecidableEq, Repr

/-- A guard state (R92); a slot in WINDOW has its window deadline (R93). -/
inductive GuardState where
  | normal
  | window (deadline : Nat)
  | frozen
  deriving DecidableEq, Repr

/-- What the Window Unit holds for a used slot (06, table of chapter 6; R109). The history is oldest first. -/
structure SlotGuard where
  state : GuardState := .normal
  intervalCount : Byte := 0
  history : List Byte := List.replicate 8 0
  lastAverage : Nat := 0
  deriving DecidableEq, Repr

/-- The two states of a Download Record (R110); ACTIVATING names the matched Approved Image. -/
inductive LoadState where
  | loading
  | activating (image : Fin 32)
  deriving DecidableEq, Repr

/-- A Download Record (R110). -/
structure Download where
  controller : Fin 16
  state : LoadState
  source : MacAddress
  nextExpected : BitVec 16
  lastNumber : Option (BitVec 16) := none
  lastLength : BitVec 16 := 0
  lastSegmentCrc : BitVec 32 := 0
  runningCrc : BitVec 32 := 0xFFFFFFFF
  byteCount : BitVec 32 := 0
  retryAllowance : Fin 4 := 3
  idleDeadline : Nat
  deriving DecidableEq, Repr

/-- The notice destination (R158): an address and the control value of the VLAN tag of NOTICE frames, if any. -/
structure NoticeDestination where
  address : MacAddress
  vlan : Option (BitVec 16)
  deriving DecidableEq, Repr

/-- The working settings (09, table of chapter 9). `startEnforce` is the start mode: ENFORCE or PASSIVE. The default
values are those of a fallback start (R167). -/
structure Settings where
  sources : List MacAddress := []
  cellManagement : Bool := false
  notice : Option NoticeDestination := none
  token : BitVec 64 := 0
  startEnforce : Bool := false
  lockAtStart : Bool := false
  deriving DecidableEq, Repr

/-- The management counters (R151). -/
structure ManagementCounters where
  notRequests : BitVec 32 := 0
  refused : BitVec 32 := 0
  replyFull : BitVec 32 := 0
  noticesLost : BitVec 32 := 0
  deriving DecidableEq, Repr

/-- A SAVE that is RUNNING (R169, R170): its snapshot, its requester, and acceptance plus 4000 ms. -/
structure SaveRun where
  settings : Settings
  bank : Bank
  bankId : BankId
  requester : MacAddress
  limit : Nat
  deriving DecidableEq, Repr

/-- The result of the last SAVE since reset (R154, R170). -/
inductive SaveResult where
  | none
  | done
  | failed
  deriving DecidableEq, Repr

/-- The state of the part. -/
structure State where
  /-- level of RESET_N (R164) -/
  resetN : Bool
  /-- level of NET_LINK (R1) -/
  netLink : Bool
  /-- level of CELL_LINK (R1) -/
  cellLink : Bool
  /-- level of CHG_PERMIT (R98) -/
  chgPermit : Bool
  /-- milliseconds since the last reset -/
  clock : Nat
  /-- NET Port Unit -/
  net : PortState
  /-- CELL Port Unit -/
  cell : PortState
  /-- decision counters per slot (R54) -/
  decisions : Vector DecisionCounters 16
  /-- Outstanding Table (R73) -/
  outstanding : List Outstanding
  /-- Shadow Store, least recently updated first (R86) -/
  shadow : List ShadowEntry
  /-- guard state and score of each used slot (R92) -/
  guards : Vector (Option SlotGuard) 16
  /-- filtered permit (R98) -/
  permit : Bool
  /-- end of the running stability period, if one runs (R98) -/
  permitPeriod : Option Nat
  /-- next expiry of the interval timer, once started (R101) -/
  intervalNext : Option Nat
  /-- level of ALERT (R106) -/
  alert : Bool
  /-- the four Download Record slots (R110) -/
  loads : Vector (Option Download) 4
  /-- bank A (R129) -/
  bankA : Bank
  /-- bank B (R129) -/
  bankB : Bank
  /-- active bank marker (R129) -/
  active : BankId
  /-- policy lock (R143) -/
  lock : Bool
  /-- device mode (R156, R164) -/
  mode : Mode
  /-- start outcome of the last start (R153) -/
  startOutcome : Option StartOutcome
  /-- the part's station address (R165) -/
  station : MacAddress
  /-- working settings (R157) -/
  settings : Settings
  /-- token failure count (R149) -/
  tokenFailures : Fin 3
  /-- end time of the lockout, if one is in force (R150) -/
  lockoutEnd : Option Nat
  /-- management counters (R151) -/
  management : ManagementCounters
  /-- Event Queue, oldest first (R159) -/
  events : List EventRecord
  /-- overflow flag (R159) -/
  overflow : Bool
  /-- the running SAVE; `none` is save state IDLE (R169) -/
  save : Option SaveRun
  /-- last save result (R170) -/
  lastSave : SaveResult
  /-- restart pending (R172) -/
  restartPending : Bool
  /-- the SPI serial memory: the cells that do not hold FFH, addresses rising -/
  memory : List (Nat × Byte)
  /-- the MODEL's own: how many free values have been drawn (log entry 14) -/
  freeValues : Nat
  /-- the MODEL's own: the commands that are waiting, first in, first out -/
  pending : List Instr
  deriving DecidableEq, Repr

/-- The faults that stop the part: none. The spec gives the part no behaviour that stops it, so this type has no
constructor and no meaning raises a fault. -/
inductive Fault where
  deriving DecidableEq, Repr

/-- The refusals. -/
inductive Refusal where
  /-- Raised by an arm of `exec` whose command has no meaning yet, by its mnemonic; safe. No arm does. -/
  | notModelled (mnemonic : String)
  deriving DecidableEq, Repr

/-- The part right after reset (R164, 10 section 10.6): every block at its reset value, mode STARTING. RESET_N high,
STARTING begun, the other pins low (log entry 5); the serial memory blank (log entry 6); the station address and
the working settings at their fallback values until STARTING ends (log entries 7 and 8). -/
def State.reset : State where
  resetN := true
  netLink := false
  cellLink := false
  chgPermit := false
  clock := 0
  net := {}
  cell := {}
  decisions := Vector.replicate 16 {}
  outstanding := []
  shadow := []
  guards := Vector.replicate 16 none
  permit := false
  permitPeriod := none
  intervalNext := none
  alert := false
  loads := Vector.replicate 4 none
  bankA := {}
  bankB := {}
  active := .a
  lock := false
  mode := .starting
  startOutcome := none
  station := 0x02006C000416#48
  settings := {}
  tokenFailures := 0
  lockoutEnd := none
  management := {}
  events := []
  overflow := false
  save := none
  lastSave := .none
  restartPending := false
  memory := []
  freeValues := 0
  pending := []

end Sys2Proof.Machine
end

