-- ==== Sys2Proof/Machine/Tables.lean ====
section
/-! DEFINITION. The policy tables: their layouts (11 section 11.4), reading and writing entries, and what the stored
fields of an active bank say. -/

namespace Sys2Proof.Machine

open Sys2Proof

/-- The chain terminator END, used in place of a rule index (11). -/
def chainEnd : BitVec 16 := 0xFFFF

/-- A Used byte means YES when it is 01H, and NO with any other value (R174). -/
def isUsed (b : Byte) : Bool := b == 1

/-! ### The seven tables -/

/-- The seven tables in table id order (R129). -/
inductive TableId where
  | bankHeader
  | profiles
  | codeMap
  | controllers
  | sources
  | rules
  | images
  deriving DecidableEq, Repr

/-- The table a table id names; none above 6 (R130). -/
def tableOfByte (b : Byte) : Option TableId :=
  match b.toNat with
  | 0 => some .bankHeader
  | 1 => some .profiles
  | 2 => some .codeMap
  | 3 => some .controllers
  | 4 => some .sources
  | 5 => some .rules
  | 6 => some .images
  | _ => none

/-- A table's id (R129). -/
def tableCode : TableId → Byte
  | .bankHeader => 0
  | .profiles => 1
  | .codeMap => 2
  | .controllers => 3
  | .sources => 4
  | .rules => 5
  | .images => 6

/-- How many entries a table has (R129). -/
def tableEntries : TableId → Nat
  | .bankHeader => 1
  | .profiles => 8
  | .codeMap => 256
  | .controllers => 16
  | .sources => 32
  | .rules => 256
  | .images => 32

/-- The size of one entry in bytes (11 section 11.4). -/
def tableEntrySize : TableId → Nat
  | .bankHeader => 4
  | .profiles => 36
  | .codeMap => 4
  | .controllers => 16
  | .sources => 8
  | .rules => 36
  | .images => 20

/-- How many entries one TABLE READ response holds (R173). -/
def tableReadLimit : TableId → Nat
  | .bankHeader => 1
  | .profiles => 8
  | .codeMap => 256
  | .controllers => 16
  | .sources => 32
  | .rules => 41
  | .images => 32

/-! ### Entry layouts (11 section 11.4); reserved bytes are not stored and are sent as 00H (R174) -/

/-- A Profile entry from its 36 bytes. -/
def profileOfBytes (l : List Byte) : Profile where
  used := byteAt l 0
  kind := byteAt l 1
  matchValue := be16At l 2
  byteOrder := byteAt l 4
  codeWidth := byteAt l 5
  tagWidth := byteAt l 6
  objectWidth := byteAt l 7
  segmentFields := byteAt l 8
  firstSegment := byteAt l 9
  unlistedClass := byteAt l 10
  okValue := byteAt l 11
  responseTimeout := byteAt l 12
  loadIdleLimit := byteAt l 13
  codeOffset := be16At l 16
  tagOffset := be16At l 18
  objectOffset := be16At l 20
  valueOffset := be16At l 22
  statusOffset := be16At l 24
  responseValueOffset := be16At l 26
  segmentNumberOffset := be16At l 28
  segmentLengthOffset := be16At l 30
  segmentPayloadOffset := be16At l 32

/-- The 36 bytes of a Profile entry. -/
def profileBytes (p : Profile) : List Byte :=
  [p.used, p.kind] ++ beBytes 2 p.matchValue.toNat ++
  [p.byteOrder, p.codeWidth, p.tagWidth, p.objectWidth, p.segmentFields, p.firstSegment, p.unlistedClass, p.okValue,
    p.responseTimeout, p.loadIdleLimit, 0, 0] ++
  beBytes 2 p.codeOffset.toNat ++ beBytes 2 p.tagOffset.toNat ++ beBytes 2 p.objectOffset.toNat ++
  beBytes 2 p.valueOffset.toNat ++ beBytes 2 p.statusOffset.toNat ++ beBytes 2 p.responseValueOffset.toNat ++
  beBytes 2 p.segmentNumberOffset.toNat ++ beBytes 2 p.segmentLengthOffset.toNat ++
  beBytes 2 p.segmentPayloadOffset.toNat ++ [0, 0]

/-- A Code Map entry from its 4 bytes. -/
def codeMapEntryOfBytes (l : List Byte) : CodeMapEntry where
  used := byteAt l 0
  cls := byteAt l 1
  code := be16At l 2

/-- The 4 bytes of a Code Map entry. -/
def codeMapEntryBytes (c : CodeMapEntry) : List Byte := [c.used, c.cls] ++ beBytes 2 c.code.toNat

/-- A Controllers entry from its 16 bytes. -/
def controllerOfBytes (l : List Byte) : Controller where
  used := byteAt l 0
  profile := byteAt l 1
  address := be48At l 2
  chainHead := be16At l 8
  unknownTraffic := byteAt l 10
  imageCheck := byteAt l 11
  scoreWindow := byteAt l 12
  freezeThreshold := byteAt l 13

/-- The 16 bytes of a Controllers entry. -/
def controllerBytes (c : Controller) : List Byte :=
  [c.used, c.profile] ++ beBytes 6 c.address.toNat ++ beBytes 2 c.chainHead.toNat ++
  [c.unknownTraffic, c.imageCheck, c.scoreWindow, c.freezeThreshold, 0, 0]

/-- A Sources entry from its 8 bytes. -/
def sourceOfBytes (l : List Byte) : Source where
  used := byteAt l 0
  groups := byteAt l 1
  address := be48At l 2

/-- The 8 bytes of a Sources entry. -/
def sourceBytes (e : Source) : List Byte := [e.used, e.groups] ++ beBytes 6 e.address.toNat

/-- A Rules entry from its 36 bytes. -/
def ruleOfBytes (l : List Byte) : Rule where
  used := byteAt l 0
  action := byteAt l 1
  classSet := byteAt l 2
  groups := byteAt l 3
  next := be16At l 4
  valueType := byteAt l 6
  outOfBand := byteAt l 7
  freeInWindow := byteAt l 8
  objectFirst := be32At l 10
  objectLast := be32At l 14
  low := be32At l 18
  high := be32At l 22
  step := be32At l 26
  grid := be32At l 30

/-- The 36 bytes of a Rules entry. -/
def ruleBytes (r : Rule) : List Byte :=
  [r.used, r.action, r.classSet, r.groups] ++ beBytes 2 r.next.toNat ++
  [r.valueType, r.outOfBand, r.freeInWindow, 0] ++
  beBytes 4 r.objectFirst.toNat ++ beBytes 4 r.objectLast.toNat ++ beBytes 4 r.low.toNat ++ beBytes 4 r.high.toNat ++
  beBytes 4 r.step.toNat ++ beBytes 4 r.grid.toNat ++ [0, 0]

/-- An Approved Images entry from its 20 bytes. -/
def imageOfBytes (l : List Byte) : ApprovedImage where
  used := byteAt l 0
  mask := be16At l 2
  length := be32At l 4
  crc := be32At l 8
  label := be64At l 12

/-- The 20 bytes of an Approved Images entry. -/
def imageBytes (e : ApprovedImage) : List Byte :=
  [e.used, 0] ++ beBytes 2 e.mask.toNat ++ beBytes 4 e.length.toNat ++ beBytes 4 e.crc.toNat ++
  beBytes 8 e.label.toNat

/-! ### Entries of a bank -/

/-- One entry of a table replaced, every field as received (R131, R174). An index beyond the table changes nothing. -/
def writeEntry (t : TableId) (i : Nat) (l : List Byte) (b : Bank) : Bank :=
  match t with
  | .bankHeader => if i = 0 then { b with commonHead := be16At l 0 } else b
  | .profiles => if h : i < 8 then { b with profiles := b.profiles.set i (profileOfBytes l) h } else b
  | .codeMap => if h : i < 256 then { b with codeMap := b.codeMap.set i (codeMapEntryOfBytes l) h } else b
  | .controllers => if h : i < 16 then { b with controllers := b.controllers.set i (controllerOfBytes l) h } else b
  | .sources => if h : i < 32 then { b with sources := b.sources.set i (sourceOfBytes l) h } else b
  | .rules => if h : i < 256 then { b with rules := b.rules.set i (ruleOfBytes l) h } else b
  | .images => if h : i < 32 then { b with images := b.images.set i (imageOfBytes l) h } else b

/-- A run of entries written from index `i` on: the first entry to the first index, and so on (R131). -/
def writeRun (t : TableId) : Nat → Nat → List Byte → Bank → Bank
  | 0, _, _, b => b
  | n + 1, i, l, b => writeRun t n (i + 1) (l.drop (tableEntrySize t)) (writeEntry t i (l.take (tableEntrySize t)) b)

/-- The bytes of one entry as held (R132); none beyond the table. -/
def entryBytes (t : TableId) (i : Nat) (b : Bank) : List Byte :=
  match t with
  | .bankHeader => if i = 0 then beBytes 2 b.commonHead.toNat ++ [0, 0] else []
  | .profiles => if h : i < 8 then profileBytes b.profiles[i] else []
  | .codeMap => if h : i < 256 then codeMapEntryBytes b.codeMap[i] else []
  | .controllers => if h : i < 16 then controllerBytes b.controllers[i] else []
  | .sources => if h : i < 32 then sourceBytes b.sources[i] else []
  | .rules => if h : i < 256 then ruleBytes b.rules[i] else []
  | .images => if h : i < 32 then imageBytes b.images[i] else []

/-- The bytes of `n` entries from index `i` on, in ascending index (R132). -/
def runBytes (t : TableId) : Nat → Nat → Bank → List Byte
  | 0, _, _ => []
  | n + 1, i, b => entryBytes t i b ++ runBytes t n (i + 1) b

/-- The tables in table id order (R129). -/
def allTables : List TableId := [.bankHeader, .profiles, .codeMap, .controllers, .sources, .rules, .images]

/-- The bytes of a whole bank: its tables in table id order, entries in ascending index (11 section 11.6). -/
def bankBytes (b : Bank) : List Byte := allTables.flatMap (fun t => runBytes t (tableEntries t) 0 b)

/-- A bank from its bytes, table by table (R175). -/
def bankOfTables : List TableId → List Byte → Bank → Bank
  | [], _, b => b
  | t :: ts, l, b =>
    bankOfTables ts (l.drop (tableEntries t * tableEntrySize t)) (writeRun t (tableEntries t) 0 l b)

/-- A bank from its bytes (R175). -/
def bankOfBytes (l : List Byte) : Bank := bankOfTables allTables l {}

/-! ### The banks of a state -/

/-- The other bank's name. -/
def otherBank : BankId → BankId
  | .a => .b
  | .b => .a

/-- The bank of a name. -/
def State.bank (s : State) : BankId → Bank
  | .a => s.bankA
  | .b => s.bankB

/-- The active bank: frames are decided under it (R129). -/
def State.activeBank (s : State) : Bank := s.bank s.active

/-- The inactive bank: the target of TABLE WRITE and BANK COPY and the subject of COMMIT (R129). -/
def State.inactiveBank (s : State) : Bank := s.bank (otherBank s.active)

/-- The inactive bank replaced. -/
def State.setInactiveBank (s : State) (b : Bank) : State :=
  match s.active with
  | .a => { s with bankB := b }
  | .b => { s with bankA := b }

/-- A bank's code where it is sent (11). -/
def bankCode : BankId → Nat
  | .a => 0
  | .b => 1

/-- A slot that is Used YES in a bank (R36). -/
def slotUsed (b : Bank) (i : Fin 16) : Bool := isUsed b.controllers[i].used

/-- The used slots of a bank in ascending order. -/
def usedSlots (b : Bank) : List (Fin 16) := allSlots.filter (slotUsed b)

/-- The used slot whose Station Address is `a` (R13): at most one, because addresses are unique among used slots. -/
def slotOfAddress (b : Bank) (a : MacAddress) : Option (Fin 16) :=
  (usedSlots b).find? (fun i => b.controllers[i].address == a)

/-- The Profile a slot names, with its index (R13). A Profile field above 7 names none; R136 keeps it out of an active
bank (log entry 22). -/
def profileOfSlot (b : Bank) (i : Fin 16) : Option (Fin 8 × Profile) :=
  if h : b.controllers[i].profile.toNat < 8 then
    some (⟨b.controllers[i].profile.toNat, h⟩, b.profiles[b.controllers[i].profile.toNat])
  else none

/-- The rule a chain link names: none for END and for a value above 255 (R38, R136). -/
def ruleIndex (h : BitVec 16) : Option (Fin 256) := if hlt : h.toNat < 256 then some ⟨h.toNat, hlt⟩ else none

/-! ### What stored fields say -/

/-- The class a Class field names (11); none above 6. -/
def classOfByte (b : Byte) : Option CommandClass :=
  match b.toNat with
  | 0 => some .read
  | 1 => some .writeValue
  | 2 => some .writeOther
  | 3 => some .control
  | 4 => some .loadBegin
  | 5 => some .loadSegment
  | 6 => some .loadActivate
  | _ => none

/-- A class's number (11). -/
def classNumber : CommandClass → Nat
  | .read => 0
  | .writeValue => 1
  | .writeOther => 2
  | .control => 3
  | .loadBegin => 4
  | .loadSegment => 5
  | .loadActivate => 6

/-- A Class Set contains a class (11: bit n stands for class n). -/
def classSetHas (m : Byte) (c : CommandClass) : Bool := m.getLsbD (classNumber c)

/-- The Value Type a field names (11); none above 05H. -/
def valueTypeOfByte (b : Byte) : Option ValueType :=
  match b.toNat with
  | 0 => some .unsigned8
  | 1 => some .signed8
  | 2 => some .unsigned16
  | 3 => some .signed16
  | 4 => some .unsigned32
  | 5 => some .signed32
  | _ => none

/-- A Value Type's width in bytes (R59). -/
def typeWidth : ValueType → Nat
  | .unsigned8 => 1
  | .signed8 => 1
  | .unsigned16 => 2
  | .signed16 => 2
  | .unsigned32 => 4
  | .signed32 => 4

/-- A Value Type is SIGNED (R57). -/
def typeSigned : ValueType → Bool
  | .unsigned8 => false
  | .signed8 => true
  | .unsigned16 => false
  | .signed16 => true
  | .unsigned32 => false
  | .signed32 => true

/-- The smallest number of a Value Type (R57). -/
def typeMin (t : ValueType) : Int := if typeSigned t then -(2 ^ (8 * typeWidth t - 1)) else 0

/-- The largest number of a Value Type (R57). -/
def typeMax (t : ValueType) : Int := if typeSigned t then 2 ^ (8 * typeWidth t - 1) - 1 else 2 ^ (8 * typeWidth t) - 1

/-- The span of a Value Type: its largest value less its smallest (R57). -/
def typeSpan (t : ValueType) : Int := typeMax t - typeMin t

/-- Low or High as the number it is read as: 32-bit two's complement under a SIGNED Value Type, plain under an
UNSIGNED one (11 section 11.4). -/
def boundNumber (t : ValueType) (w : BitVec 32) : Int := if typeSigned t then w.toInt else w.toNat

/-- The Response Timeout in milliseconds: units of 10 ms, a stored 0 read as 1 (R33). -/
def responseTimeoutMs (p : Profile) : Nat := (if p.responseTimeout = 0 then 1 else p.responseTimeout.toNat) * 10

/-- The Load Idle Limit in milliseconds: seconds, a stored 0 read as 1 (R33). -/
def loadIdleMs (p : Profile) : Nat := (if p.loadIdleLimit = 0 then 1 else p.loadIdleLimit.toNat) * 1000

/-- Byte Order LITTLE (R21). -/
def isLittle (p : Profile) : Bool := p.byteOrder == 1

/-- Segment Fields PRESENT (R27). -/
def hasSegments (p : Profile) : Bool := p.segmentFields == 1

/-- Image Check ON (R36). -/
def imageCheckOn (c : Controller) : Bool := c.imageCheck == 1

end Sys2Proof.Machine
end

