-- ==== Sys2Proof/Machine/Bounds.lean ====
section
/-! DEFINITION. The Value Bound Unit: the BOUND computation in exact integers (04 R58 to R65). -/

namespace Sys2Proof.Machine

open Sys2Proof

/-- The six BOUND fields of a rule as numbers (R57). -/
structure BoundRule where
  low : Int
  high : Int
  step : Nat
  grid : Nat
  refuse : Bool
  deriving DecidableEq, Repr

/-- The four outcomes of the Value Bound Unit (R56); CLAMP gives the admissible value. -/
inductive BoundOutcome where
  | permit
  | clamp (q : Int)
  | outOfBand
  | noAdmissible
  deriving DecidableEq, Repr

/-- The admissible band (R61): `[Low, High]`, narrowed to Step around the reference when Step is not 0 and a reference
exists. -/
def boundBand (r : BoundRule) (reference : Option Int) : Int × Int :=
  match reference with
  | some s => if 0 < r.step then (max r.low (s - r.step), min r.high (s + r.step)) else (r.low, r.high)
  | none => (r.low, r.high)

/-- The candidate rounded to the nearest grid point, ties toward Low; unchanged with no grid (R62, R63). -/
def boundRound (r : BoundRule) (c : Int) : Int :=
  if 2 ≤ r.grid then
    let k := (c - r.low) / r.grid
    let rem := (c - r.low) % r.grid
    r.low + (if (r.grid : Int) < 2 * rem then k + 1 else k) * r.grid
  else c

/-- The correction of R64: one Grid down when above `b`, then one Grid up when below `a`. -/
def boundCorrect (r : BoundRule) (a b q : Int) : Int :=
  let q1 := if b < q then q - r.grid else q
  if q1 < a then q1 + r.grid else q1

/-- The admissible value, if there is one (R61 to R64). -/
def admissible (r : BoundRule) (reference : Option Int) (v : Int) : Option Int :=
  let (a, b) := boundBand r reference
  if b < a then none
  else
    let c := min (max v a) b
    let q := if 2 ≤ r.grid then boundCorrect r a b (boundRound r c) else c
    if a ≤ q ∧ q ≤ b then some q else none

/-- The outcome for a requested value (R65). -/
def boundOutcome (r : BoundRule) (reference : Option Int) (v : Int) : BoundOutcome :=
  match admissible r reference v with
  | none => .noAdmissible
  | some q => if q = v then .permit else if r.refuse then .outOfBand else .clamp q

/-- The BOUND fields of a stored rule under a Value Type (R57, 11 section 11.4). -/
def boundRuleOf (t : ValueType) (r : Rule) : BoundRule where
  low := boundNumber t r.low
  high := boundNumber t r.high
  step := r.step.toNat
  grid := r.grid.toNat
  refuse := r.outOfBand == 1

end Sys2Proof.Machine
end

