-- ==== Sys2Proof/Machine/Operands.lean ====
section
/-! DEFINITION. Reading a frame: the Ethernet, VLAN, IPv4 and UDP layers (01 section 1.6), profile recognition (R14),
the fields of a command or response (02), its class (R22), the malformed test (R28), numbers of a Value Type
(R59, R68) and the UDP checksum (R70, R72). Positions count from the first byte of the destination address; a frame is
read here without its FCS. -/

namespace Sys2Proof.Machine

open Sys2Proof

/-! ### Layers -/

/-- A VLAN tag type (R10). -/
def isTagType (t : BitVec 16) : Bool := t == 0x8100 || t == 0x88A8

/-- The layers of R10: `payloadType` is absent for stacked tags and for a length field below 0600H. -/
structure Layers where
  destination : MacAddress
  source : MacAddress
  vlanTag : Option (BitVec 32)
  stacked : Bool
  payloadType : Option (BitVec 16)
  payloadStart : Nat
  payload : List Byte
  deriving DecidableEq, Repr

/-- The Ethernet layer of a frame (R10). -/
def readLayers (frame : List Byte) : Layers :=
  let outer := be16At frame 12
  let inner := be16At frame 16
  let tagged := isTagType outer
  let stacked := tagged && isTagType inner
  let type := if tagged then inner else outer
  let start := if tagged then 18 else 14
  { destination := be48At frame 0
    source := be48At frame 6
    vlanTag := if tagged then some (be32At frame 12) else none
    stacked := stacked
    payloadType := if stacked || type.toNat < 0x0600 then none else some type
    payloadStart := start
    payload := frame.drop start }

/-- The IPv4 fields R11 names. -/
structure Ipv4 where
  headerLength : Nat
  totalLength : Nat
  fragment : Bool
  protocol : Byte
  source : BitVec 32
  destination : BitVec 32
  deriving DecidableEq, Repr

/-- The IPv4 layer of a frame, when it is valid (R11). -/
def readIpv4 (l : Layers) : Option Ipv4 :=
  let p := l.payload
  let first := byteAt p 0
  let headerLength := (first.toNat % 16) * 4
  let totalLength := (be16At p 2).toNat
  if l.payloadType = some 0x0800 ∧ first.toNat / 16 = 4 ∧ 20 ≤ headerLength ∧ headerLength ≤ totalLength ∧
      totalLength ≤ p.length then
    some
      { headerLength := headerLength
        totalLength := totalLength
        -- More Fragments is bit 13 of bytes 6 and 7; the Fragment Offset is bits 12 to 0
        fragment := (be16At p 6).toNat % 0x4000 != 0
        protocol := byteAt p 9
        source := be32At p 12
        destination := be32At p 16 }
  else none

/-- The UDP fields R12 names, with the datagram (UDP header and payload) they stand in. -/
structure Udp where
  ip : Ipv4
  sourcePort : BitVec 16
  destinationPort : BitVec 16
  length : BitVec 16
  checksum : BitVec 16
  datagram : List Byte
  deriving DecidableEq, Repr

/-- The UDP layer of a frame, when it is valid (R12). -/
def readUdp (l : Layers) : Option Udp :=
  match readIpv4 l with
  | none => none
  | some ip =>
    let h := ip.headerLength
    let len := be16At l.payload (h + 4)
    if ip.protocol = 17 ∧ ip.fragment = false ∧ h + 8 ≤ ip.totalLength ∧ 8 ≤ len.toNat ∧
        len.toNat ≤ ip.totalLength - h then
      some
        { ip := ip
          sourcePort := be16At l.payload h
          destinationPort := be16At l.payload (h + 2)
          length := len
          checksum := be16At l.payload (h + 6)
          datagram := slice l.payload h len.toNat }
    else none

/-- The frame is an IPv4 fragment (R11). -/
def isFragment (l : Layers) : Bool :=
  match readIpv4 l with
  | none => false
  | some ip => ip.fragment

/-- A Profile's recogniser accepts a frame (R14): the Payload Type for ETHERTYPE kind, the destination port downstream
or the source port upstream for UDP kind. An upstream fragment matches no Profile, whatever its Kind (R14, R31). A Kind
no code names accepts nothing (log entry 22). -/
def matchesProfile (p : Profile) (downstream : Bool) (l : Layers) : Bool :=
  if p.kind = 0 then l.payloadType == some p.matchValue && (downstream || !isFragment l)
  else if p.kind = 1 then
    match readUdp l with
    | none => false
    | some u => (if downstream then u.destinationPort else u.sourcePort) == p.matchValue
  else false

/-- The fragment case of R14: a downstream IPv4 fragment of Protocol 17 to a controller whose profile is of UDP kind. -/
def isFragmentFor (p : Profile) (l : Layers) : Bool :=
  p.kind == 1 &&
    match readIpv4 l with
    | none => false
    | some ip => ip.protocol == 17 && ip.fragment

/-- The protocol payload of a frame and where it starts in the frame (R20). -/
structure ProtocolPayload where
  start : Nat
  bytes : List Byte
  deriving DecidableEq, Repr

/-- The protocol payload under a Profile: the layer payload, padding included, or the UDP payload (R20). -/
def protocolPayload (p : Profile) (l : Layers) : ProtocolPayload :=
  if p.kind = 1 then
    match readUdp l with
    | none => ⟨l.payloadStart, []⟩
    | some u => ⟨l.payloadStart + u.ip.headerLength + 8, u.datagram.drop 8⟩
  else ⟨l.payloadStart, l.payload⟩

/-! ### Fields -/

/-- The number a run spells in the Profile's Byte Order (R21). -/
def orderedNat (p : Profile) (l : List Byte) : Nat := if isLittle p then leNat l else beNat l

/-- A field of offset `off` and width `w` is complete when `off + w ≤ P` (R20). -/
def fieldComplete (payload : List Byte) (off : BitVec 16) (w : Nat) : Bool := off.toNat + w ≤ payload.length

/-- A field's plain unsigned number; absent when the field is not complete (R20, R21). -/
def readField (p : Profile) (payload : List Byte) (off : BitVec 16) (w : Nat) : Option Nat :=
  if fieldComplete payload off w then some (orderedNat p (slice payload off.toNat w)) else none

/-- The Code field (R22). -/
def readCode (p : Profile) (payload : List Byte) : Option Nat := readField p payload p.codeOffset p.codeWidth.toNat

/-- The tag: present when Tag Width is not 0 and the field is complete (R24). -/
def readTag (p : Profile) (payload : List Byte) : Option (BitVec 32) :=
  if p.tagWidth = 0 then none else (readField p payload p.tagOffset p.tagWidth.toNat).map (BitVec.ofNat 32)

/-- The object address: 0 for Object Width 0, else the Object field when it is complete (R25). -/
def readObject (p : Profile) (payload : List Byte) : Option (BitVec 32) :=
  if p.objectWidth = 0 then some 0
  else (readField p payload p.objectOffset p.objectWidth.toNat).map (BitVec.ofNat 32)

/-- The index of entry `e` of Profile `i` in the Code Map: Profile number × 32 + entry number (R129). -/
def codeMapIndex (i : Fin 8) (e : Fin 32) : Fin 256 := ⟨i.val * 32 + e.val, by omega⟩

/-- The class of a code under Profile `i` of a bank (R22): that of the used Code Map entry with this Code, else the
Unlisted Class. A class byte no code names is read as WRITE_OTHER; R137 keeps it out of an active bank (log entry 22). -/
def classOfCode (b : Bank) (i : Fin 8) (code : Nat) : CommandClass :=
  match (List.finRange 32).find? (fun e =>
      isUsed b.codeMap[codeMapIndex i e].used && b.codeMap[codeMapIndex i e].code.toNat == code) with
  | some e => (classOfByte b.codeMap[codeMapIndex i e].cls).getD .writeOther
  | none => (classOfByte b.profiles[i].unlistedClass).getD .writeOther

/-- The segment fields of a LOAD_SEGMENT (R27). -/
structure Segment where
  number : BitVec 16
  length : BitVec 16
  data : List Byte
  deriving DecidableEq, Repr

/-- What the Rule Engine is handed for a COMMAND that passes R28 (R30). `object` is 0 for the classes whose Object field
is not read (R25). -/
structure Command where
  slot : Fin 16
  source : MacAddress
  profileIndex : Fin 8
  profile : Profile
  controller : Controller
  cls : CommandClass
  code : Nat
  tag : Option (BitVec 32)
  object : BitVec 32
  payload : ProtocolPayload
  segment : Option Segment
  deriving DecidableEq, Repr

/-- The classes whose rules test the object range and whose event records carry the object (R25, R35). -/
def hasObject : CommandClass → Bool
  | .read => true
  | .writeValue => true
  | .writeOther => true
  | .control => false
  | .loadBegin => false
  | .loadSegment => false
  | .loadActivate => false

/-- The load classes (R47). -/
def isLoadClass : CommandClass → Bool
  | .loadBegin => true
  | .loadSegment => true
  | .loadActivate => true
  | .read => false
  | .writeValue => false
  | .writeOther => false
  | .control => false

/-- The fields a class requires are complete, the second step of R28. -/
def requiredComplete (p : Profile) (payload : List Byte) (c : CommandClass) : Bool :=
  let tagOk := p.tagWidth == 0 || (readTag p payload).isSome
  let objectOk := (readObject p payload).isSome
  match c with
  | .read => objectOk
  | .writeValue => tagOk && objectOk && fieldComplete payload p.valueOffset 1
  | .writeOther => objectOk
  | .control => true
  | .loadBegin => tagOk
  | .loadActivate => tagOk
  | .loadSegment =>
    tagOk && (!hasSegments p || (fieldComplete payload p.segmentNumberOffset 2 &&
      fieldComplete payload p.segmentLengthOffset 2))

/-- The segment fields as R27 reads them. -/
def readSegment (p : Profile) (payload : List Byte) : Segment :=
  let length := BitVec.ofNat 16 (orderedNat p (slice payload p.segmentLengthOffset.toNat 2))
  { number := BitVec.ofNat 16 (orderedNat p (slice payload p.segmentNumberOffset.toNat 2))
    length := length
    data := slice payload p.segmentPayloadOffset.toNat length.toNat }

/-- The segment payload is in range (R27). -/
def segmentInRange (p : Profile) (payload : List Byte) : Bool :=
  p.segmentPayloadOffset.toNat + (readSegment p payload).length.toNat ≤ payload.length

/-- The result of the malformed test: MALFORMED with a reason and the object when it was read, or a parsed command. -/
inductive Parsed where
  | malformed (reason : Reason) (object : Option (BitVec 32))
  | command (c : Command)
  deriving DecidableEq, Repr

/-- The malformed test of R28 on a COMMAND for a slot, in its three steps, and the parsed command of R30. DESIGN CHOICE
(log entry 19): through a Profile with Object Width 0 a MALFORMED record carries object 0, the address R25 gives every
such command, although no Object field was read. -/
def parseCommand (b : Bank) (slot : Fin 16) (i : Fin 8) (p : Profile) (l : Layers) : Parsed :=
  if isFragmentFor p l then .malformed .fragment none
  else
    let payload := protocolPayload p l
    match readCode p payload.bytes with
    | none => .malformed .short none
    | some code =>
      let cls := classOfCode b i code
      let object := if hasObject cls then readObject p payload.bytes else none
      if !requiredComplete p payload.bytes cls then .malformed .short object
      else if cls = .loadSegment ∧ hasSegments p ∧ !segmentInRange p payload.bytes then
        .malformed .segmentLength none
      else
        .command
          { slot := slot
            source := l.source
            profileIndex := i
            profile := p
            controller := b.controllers[slot]
            cls := cls
            code := code
            tag := readTag p payload.bytes
            object := object.getD 0
            payload := payload
            segment := if cls = .loadSegment ∧ hasSegments p then some (readSegment p payload.bytes) else none }

/-- The object an event record about a parsed command carries (R52). -/
def eventObject (c : Command) : Option (BitVec 32) := if hasObject c.cls then some c.object else none

/-- The outcome of a response (R31): positive when its Status byte is complete and equals OK Value. -/
def responsePositive (p : Profile) (payload : List Byte) : Bool :=
  fieldComplete payload p.statusOffset 1 && byteAt payload p.statusOffset.toNat == p.okValue

/-! ### Numbers of a Value Type -/

/-- The number the bytes of a Value field spell: unsigned `u`, or `u - 2^(8w)` for a SIGNED type from `2^(8w-1)` on
(R59). -/
def decodeValue (p : Profile) (t : ValueType) (l : List Byte) : Int :=
  let u : Int := orderedNat p l
  if typeSigned t ∧ 2 ^ (8 * typeWidth t - 1) ≤ u then u - 2 ^ (8 * typeWidth t) else u

/-- The bytes of a number in the Profile's Byte Order: `q`, or `q + 2^(8w)` when it is negative (R68). -/
def encodeValue (p : Profile) (t : ValueType) (q : Int) : List Byte :=
  let u := (if q < 0 then q + 2 ^ (8 * typeWidth t) else q).toNat
  if isLittle p then leBytes (typeWidth t) u else beBytes (typeWidth t) u

/-- The `w` bytes of a value field at an offset of the protocol payload; absent when the field is not complete (R29,
R32). -/
def readValue (p : Profile) (payload : List Byte) (off : BitVec 16) (t : ValueType) : Option Int :=
  if fieldComplete payload off (typeWidth t) then
    some (decodeValue p t (slice payload off.toNat (typeWidth t)))
  else none

/-! ### UDP checksum -/

/-- The 16-bit words of a run, the first byte the more significant; an odd last byte is paired with a zero byte (R70). -/
def words : List Byte → List Nat
  | a :: b :: rest => (a.toNat * 256 + b.toNat) :: words rest
  | [a] => [a.toNat * 256]
  | [] => []

/-- One's complement addition: the carry out of bit 15 is added back into bit 0 (R70). -/
def onesAdd (a b : Nat) : Nat := if a + b < 0x10000 then a + b else a + b - 0xFFFF

/-- The one's complement sum of R70 over the pseudo-header and a datagram. -/
def udpSum (ip : Ipv4) (datagram : List Byte) : Nat :=
  let head := beBytes 4 ip.source.toNat ++ beBytes 4 ip.destination.toNat ++ [0, 17] ++
    beBytes 2 datagram.length
  (words (head ++ datagram)).foldl onesAdd 0

/-- The received checksum passes the check of R70. -/
def checksumPasses (u : Udp) : Bool := udpSum u.ip u.datagram == 0xFFFF

/-- The checksum of a datagram computed afresh (R72): the sum with the field taken as 0000H, complemented, FFFFH in place
of 0000H. -/
def freshChecksum (ip : Ipv4) (datagram : List Byte) : Nat :=
  let c := 0xFFFF - udpSum ip (splice datagram 6 [0, 0])
  if c = 0 then 0xFFFF else c

/-- The rewrite of a clamped frame (R68, R72): the Value field's bytes replaced, and for UDP kind with a received
checksum other than 0000H the checksum computed afresh over the rewritten datagram. -/
def rewriteFrame (c : Command) (frame : List Byte) (t : ValueType) (q : Int) : List Byte :=
  let valued := splice frame (c.payload.start + c.profile.valueOffset.toNat) (encodeValue c.profile t q)
  match (if c.profile.kind = 1 then readUdp (readLayers valued) else none) with
  | none => valued
  | some u =>
    if u.checksum = 0 then valued
    else splice valued (c.payload.start - 2) (beBytes 2 (freshChecksum u.ip u.datagram))

end Sys2Proof.Machine
end

