-- ==== Sys2Proof/Config.lean ====
section
/-! DEFINITION. The free values: what the spec leaves open and the machine goes on after. -/

namespace Sys2Proof

/-- FREE VALUE (log entry 14): how many bytes of the body had been written when a SAVE was abandoned by a reset
or ended at its 4000 ms limit. R170 and R171 leave it open ("whatever part of the body was written"). The `k`-th
such SAVE has the `k`-th value. It has no body on purpose: no proof can learn what it is. -/
opaque Config.saveProgress : Nat → Nat

end Sys2Proof
end

