-- ==== Sys2Proof/Machine/Crc.lean ====
section
/-! DEFINITION. The image CRC of R112, and the Ethernet frame check sequence. -/

namespace Sys2Proof.Machine

open Sys2Proof

/-- One place of the CRC register: shifted right by one; XORed with EDB88320H when the bit shifted out is 1 (R112). -/
def crcShift (r : BitVec 32) : BitVec 32 :=
  if r.getLsbD 0 then (r >>> 1) ^^^ 0xEDB88320 else r >>> 1

/-- Folding one byte into the register: XORed into the low 8 bits, then eight places (R112). -/
def crcByte (r : BitVec 32) (b : Byte) : BitVec 32 :=
  crcShift (crcShift (crcShift (crcShift (crcShift (crcShift (crcShift (crcShift
    (r ^^^ b.setWidth 32))))))))

/-- The register carried forward over a run of bytes (R112, Running CRC). -/
def crcFold (r : BitVec 32) (l : List Byte) : BitVec 32 := l.foldl crcByte r

/-- The CRC of a run of bytes: preset FFFFFFFFH, folded, complemented (R112). -/
def crc32 (l : List Byte) : BitVec 32 := ~~~ crcFold 0xFFFFFFFF l

/-- The FCS of a frame: the Ethernet CRC of its bytes, least significant byte sent first. PRESUMED (log entry 10):
the spec names the FCS and leaves its computation to Ethernet. -/
def fcsBytes (frame : List Byte) : List Byte := leBytes 4 (crc32 frame).toNat

/-- A frame as it is transmitted: its FCS generated afresh over it (R6). -/
def withFcs (frame : List Byte) : List Byte := frame ++ fcsBytes frame

/-- A received frame without its FCS, the last 4 bytes (01 section 1.6). -/
def withoutFcs (frame : List Byte) : List Byte := frame.take (frame.length - 4)

/-- The received FCS matches the FCS computed over the frame (R3). -/
def fcsOk (frame : List Byte) : Bool :=
  4 ≤ frame.length && frame.drop (frame.length - 4) == fcsBytes (withoutFcs frame)

end Sys2Proof.Machine
end

