-- ==== Sys2Proof/Machine/Flags.lean ====
section
/-! DEFINITION. Codes and flags the part reports: event kinds, reasons and records (11 section 11.5), status values
(11 section 11.1), and the presence flags of a record. -/

namespace Sys2Proof.Machine

open Sys2Proof

/-- An event kind's code (11 section 11.5). Code 12H is not used. -/
def kindCode : EventKind → Byte
  | .denied => 0x01
  | .valueClamped => 0x02
  | .valueRefused => 0x03
  | .malformed => 0x04
  | .trackFull => 0x05
  | .wouldDeny => 0x06
  | .wouldClamp => 0x07
  | .wouldRefuse => 0x08
  | .responseNegative => 0x09
  | .responseTimeout => 0x0A
  | .windowOpened => 0x0B
  | .windowClosed => 0x0C
  | .frozen => 0x0D
  | .thawed => 0x0E
  | .loadStarted => 0x0F
  | .loadAborted => 0x10
  | .loadOrphan => 0x11
  | .loadNoSlot => 0x13
  | .loadRejected => 0x14
  | .loadAccepted => 0x15
  | .loadFailed => 0x16
  | .committed => 0x17
  | .modeChanged => 0x18
  | .policyLocked => 0x19
  | .linkChanged => 0x1A
  | .tokenLockout => 0x1B
  | .saveDone => 0x1C
  | .saveFailed => 0x1D
  | .started => 0x1E

/-- A reason's code (11 section 11.5). -/
def reasonCode : Reason → Byte
  | .rule => 0x01
  | .noWindow => 0x02
  | .default => 0x03
  | .frozen => 0x04
  | .unguarded => 0x05
  | .outOfBand => 0x06
  | .noAdmissible => 0x07
  | .fragment => 0x08
  | .short => 0x09
  | .badChecksum => 0x0A
  | .segmentLength => 0x0B
  | .broadcastCommand => 0x0C
  | .trackFull => 0x0D
  | .outOfOrder => 0x0E
  | .substituted => 0x0F
  | .sourceChanged => 0x10
  | .retries => 0x11
  | .idle => 0x12
  | .window => 0x13
  | .link => 0x14
  | .policy => 0x15
  | .restarted => 0x16
  | .tooLong => 0x17
  | .refusedByController => 0x18
  | .loadNoSlot => 0x19
  | .loadOrphan => 0x1A
  | .loadRejected => 0x1B
  | .request => 0x1C
  | .expired => 0x1D
  | .permit => 0x1E
  | .goodImage => 0x1F
  | .noImage => 0x20
  | .badImage => 0x21

/-- The presence flags of a record: bit 0 Reason, 1 slot, 2 rule index, 3 source, 4 object, 5 requested value,
6 forwarded value, 7 Extra (11 section 11.5). -/
def presenceFlags (e : EventRecord) : Nat :=
  (if e.reason.isSome then 1 else 0) + (if e.slot.isSome then 2 else 0) + (if e.rule.isSome then 4 else 0) +
  (if e.source.isSome then 8 else 0) + (if e.object.isSome then 16 else 0) +
  (if e.requested.isSome then 32 else 0) + (if e.forwarded.isSome then 64 else 0) +
  (if e.extra.isSome then 128 else 0)

/-- A number as 64-bit two's complement, big-endian. -/
def int64Bytes (v : Int) : List Byte := beBytes 8 (BitVec.ofInt 64 v).toNat

/-- The 44 bytes of an event record (11 section 11.5); absent fields are zero bytes. -/
def recordBytes (e : EventRecord) : List Byte :=
  beBytes 6 e.time ++ [kindCode e.kind, (e.reason.map reasonCode).getD 0] ++ beBytes 2 (presenceFlags e) ++
  [(e.slot.map (fun i => BitVec.ofNat 8 i.val)).getD 0, (e.rule.map (fun i => BitVec.ofNat 8 i.val)).getD 0] ++
  beBytes 6 ((e.source.map BitVec.toNat).getD 0) ++ beBytes 4 ((e.object.map BitVec.toNat).getD 0) ++
  int64Bytes (e.requested.getD 0) ++ int64Bytes (e.forwarded.getD 0) ++ beBytes 4 (e.extra.getD 0) ++ zeros 2

/-- The status values (09 section 9.2). -/
inductive Status where
  | ok
  | badRequest
  | badLength
  | badArgument
  | badIndex
  | notAuthorized
  | lockedOut
  | policyLocked
  | inconsistent
  | noPermit
  | frozen
  | busy
  deriving DecidableEq, Repr

/-- A status value's code (11 section 11.1). -/
def statusCode : Status → Byte
  | .ok => 0x00
  | .badRequest => 0x01
  | .badLength => 0x02
  | .badArgument => 0x03
  | .badIndex => 0x04
  | .notAuthorized => 0x05
  | .lockedOut => 0x06
  | .policyLocked => 0x07
  | .inconsistent => 0x08
  | .noPermit => 0x09
  | .frozen => 0x0A
  | .busy => 0x0B

/-- A device mode's code (11). -/
def modeCode : Mode → Byte
  | .starting => 0
  | .passive => 1
  | .enforce => 2

/-- A start outcome's code (11). No outcome exists before STARTING ends, when no request is taken. -/
def outcomeCode : Option StartOutcome → Byte
  | some .goodImage => 0
  | some .noImage => 1
  | some .badImage => 2
  | none => 0

/-- The reason a STARTED record gives for a start outcome (R168). -/
def outcomeReason : StartOutcome → Reason
  | .goodImage => .goodImage
  | .noImage => .noImage
  | .badImage => .badImage

/-- A guard state's code (11). -/
def guardCode : GuardState → Byte
  | .normal => 0
  | .window _ => 1
  | .frozen => 2

/-- The last save result's code (11 section 11.3). -/
def saveResultCode : SaveResult → Byte
  | .none => 0
  | .done => 1
  | .failed => 2

/-- The Extra of a LINK_CHANGED record: 0 NET DOWN, 1 NET UP, 2 CELL DOWN, 3 CELL UP (R1). -/
def linkExtra (p : Port) (up : Bool) : Nat :=
  (match p with
    | .net => 0
    | .cell => 2) + (if up then 1 else 0)

end Sys2Proof.Machine
end

