-- ==== Sys2Proof/Machine/Ops.lean ====
section
/-! DEFINITION. The operations every block shares: adding event records and offering NOTICE frames, the queues, arbiter
and counters of the Port Units, reply frames, and the reset. -/

namespace Sys2Proof.Machine

open Sys2Proof

/-! ### Event Queue -/

/-- A record added at the newest end: at most 64 are held, and a record that finds 64 is discarded and sets the overflow
flag (R159). -/
def State.record (s : State) (e : EventRecord) : State :=
  if s.events.length < 64 then { s with events := s.events ++ [e] } else { s with overflow := true }

/-! ### Port Units -/

/-- The Port Unit of a port. -/
def State.port (s : State) : Port → PortState
  | .net => s.net
  | .cell => s.cell

/-- The Port Unit of a port replaced. -/
def State.setPort (s : State) (p : Port) (ps : PortState) : State :=
  match p with
  | .net => { s with net := ps }
  | .cell => { s with cell := ps }

/-- The outgoing port of a frame that arrives at `p` (R5). -/
def otherPort : Port → Port
  | .net => .cell
  | .cell => .net

/-- The transmit arbiter (R8): with the port UP and the transmitter FREE, the queue Last Grant does not name when both
hold frames, else the one that holds frames; its head leaves the queue and the transmitter is BUSY with it. -/
def grant (ps : PortState) : PortState :=
  if ps.up ∧ ps.transmitter = .free then
    match ps.forwardQueue, ps.replyQueue, ps.lastGrant with
    | _ :: _, r :: rs, .forward => { ps with replyQueue := rs, transmitter := .reply r, lastGrant := .reply }
    | f :: fs, _ :: _, .reply => { ps with forwardQueue := fs, transmitter := .forward f, lastGrant := .forward }
    | f :: fs, [], _ => { ps with forwardQueue := fs, transmitter := .forward f, lastGrant := .forward }
    | [], r :: rs, _ => { ps with replyQueue := rs, transmitter := .reply r, lastGrant := .reply }
    | [], [], _ => ps
  else ps

/-- A frame added at the tail of the forward queue (R6); a frame placed in an empty queue makes a grant (R8). -/
def placeForward (ps : PortState) (frame : List Byte) : PortState :=
  let ps' := { ps with forwardQueue := ps.forwardQueue ++ [frame] }
  if ps.forwardQueue = [] then grant ps' else ps'

/-- A frame added at the tail of the reply queue (R7); a frame placed in an empty queue makes a grant (R8). -/
def placeReply (ps : PortState) (r : Reply) : PortState :=
  let ps' := { ps with replyQueue := ps.replyQueue ++ [r] }
  if ps.replyQueue = [] then grant ps' else ps'

/-- The frames a transmitter holds of its port's forward queue. -/
def transmitterForwards : Transmitter → List (List Byte)
  | .forward f => [f]
  | .free => []
  | .reply _ => []

/-- The frames a transmitter holds of its port's reply queue. -/
def transmitterReplies : Transmitter → List Reply
  | .reply r => [r]
  | .free => []
  | .forward _ => []

/-- A Port Unit whose Link State goes to DOWN (R2): both queues emptied, the frame in transmission abandoned, one Link
Drop for each forward-queue frame among them; Last Grant is not changed. -/
def flushPort (ps : PortState) : PortState :=
  { ps with
    up := false
    forwardQueue := []
    replyQueue := []
    transmitter := .free
    linkDrops := satAdd ps.linkDrops (ps.forwardQueue.length + (transmitterForwards ps.transmitter).length) }

/-- The reply frames that `flushPort` discards or abandons, each of which is reported (R2, R7). -/
def flushedReplies (ps : PortState) : List Reply := transmitterReplies ps.transmitter ++ ps.replyQueue

/-- A frame a port receives: 1 added to Received (R3). -/
def countReceived (s : State) (p : Port) : State :=
  s.setPort p { s.port p with received := satAdd (s.port p).received 1 }

/-- 1 added to Format Drops (R3). -/
def countFormatDrop (s : State) (p : Port) : State :=
  s.setPort p { s.port p with formatDrops := satAdd (s.port p).formatDrops 1 }

/-- 1 added to Queue Full Drops (R5). -/
def countQueueFull (s : State) (p : Port) : State :=
  s.setPort p { s.port p with queueFullDrops := satAdd (s.port p).queueFullDrops 1 }

/-- 1 added to Guard Drops (R9). -/
def countGuardDrop (s : State) (p : Port) : State :=
  s.setPort p { s.port p with guardDrops := satAdd (s.port p).guardDrops 1 }

/-- 1 added to Link Drops (R5). -/
def countLinkDrop (s : State) (p : Port) : State :=
  s.setPort p { s.port p with linkDrops := satAdd (s.port p).linkDrops 1 }

/-- A frame placed in the forward queue of a port. -/
def forwardFrame (s : State) (p : Port) (frame : List Byte) : State :=
  s.setPort p (placeForward (s.port p) frame)

/-! ### The reset -/

/-- The 20 ms stability period of the permit filter (R98). -/
def stabilityMs : Nat := 20

/-- The reset of R164: every block at its values of 10.6, the clock at 0, mode STARTING. The pins, the serial memory and
the waiting commands are not the part's to reset (log entry 26). With RESET_N high STARTING begins and the permit
filter runs from this instant (R98); with RESET_N low the part stays in reset (log entry 11). -/
def resetPart (s : State) (resetHigh : Bool) : State :=
  { State.reset with
    resetN := resetHigh
    netLink := s.netLink
    cellLink := s.cellLink
    chgPermit := s.chgPermit
    permitPeriod := if resetHigh && s.chgPermit then some stabilityMs else none
    memory := s.memory
    freeValues := s.freeValues
    pending := s.pending }

/-! ### Reply frames -/

/-- A report on a reply frame, completed or discarded (R7): the report on a RESTART's response takes the reset (R172). -/
def reportReply (s : State) (r : Reply) : State :=
  match r.kind with
  | .restartResponse => resetPart s true
  | .response => s
  | .notice => s

/-- The reports on several reply frames. -/
def reportReplies (s : State) (l : List Reply) : State := l.foldl reportReply s

/-- A frame the Management Unit offers to a reply queue: placed, or discarded and reported when the port is DOWN (R7). -/
def offerReply (s : State) (p : Port) (r : Reply) : State :=
  if (s.port p).up then s.setPort p (placeReply (s.port p) r) else reportReply s r

/-- A frame the part builds: addresses, VLAN tag, type 88B6H, content, zero bytes up to 64 bytes FCS included (R7), and the
FCS (R6). -/
def buildFrame (destination station : MacAddress) (vlanTag : Option (BitVec 32)) (content : List Byte) : List Byte :=
  let frame := beBytes 6 destination.toNat ++ beBytes 6 station.toNat ++
    ((vlanTag.map (fun t => beBytes 4 t.toNat)).getD [] ++ ([0x88, 0xB6] ++ content))
  withFcs (frame ++ zeros (60 - frame.length))

/-- The NOTICE for a record that made the Event Queue non-empty (R162, 11 section 11.1). -/
def noticeFrame (s : State) (n : NoticeDestination) (e : EventRecord) (flag : Bool) : List Byte :=
  buildFrame n.address s.station (n.vlan.map (fun c => 0x8100#16 ++ c))
    ([0x01, 0xC0, 0, 0, statusCode .ok, 0] ++ beBytes 2 8 ++
      (beBytes 6 e.time ++ [kindCode e.kind, boolByte flag]))

/-- One NOTICE offered to the NET reply queue (R162): placed when the queue holds fewer than 4 frames, else counted in
Notices Lost; discarded and not counted while the NET port is DOWN. -/
def offerNotice (s : State) (n : NoticeDestination) (e : EventRecord) (flag : Bool) : State :=
  if !s.net.up then s
  else if s.net.replyQueue.length < 4 then
    s.setPort .net (placeReply s.net ⟨.notice, noticeFrame s n e flag⟩)
  else { s with management := { s.management with noticesLost := satAdd s.management.noticesLost 1 } }

/-- The NOTICE that an operation leading from `before` to `after` gives rise to: one when the Event Queue was empty, a
record has been added, and a notice destination is set (R162). -/
def noticeAfter (before after : State) : State :=
  match before.events, after.events, after.settings.notice with
  | [], e :: _, some n => offerNotice after n e before.overflow
  | _, _, _ => after

/-- An operation with the NOTICE its records give rise to. -/
def noticing (f : State → State) (s : State) : State := noticeAfter s (f s)

end Sys2Proof.Machine
end

