-- ==== Sys2Proof/Machine/Loads.lean ====
section
/-! DEFINITION. The Load Checker: Download Records, segment sequencing, the image check, and what ends a record
(07 R110 to R127). -/

namespace Sys2Proof.Machine

open Sys2Proof

/-- The Download Slots 0 to 3 in ascending order. -/
def allLoads : List (Fin 4) := List.finRange 4

/-- A Download Record slot replaced. -/
def State.setLoad (s : State) (d : Fin 4) (r : Option Download) : State :=
  { s with loads := s.loads.set d r }

/-- The Download Slot of a controller's record (R113): at most one (R110). -/
def loadOf (s : State) (slot : Fin 16) : Option (Fin 4) :=
  allLoads.find? (fun d => match s.loads[d] with
    | some r => r.controller == slot
    | none => false)

/-- The lowest-numbered FREE slot (R114). -/
def freeLoad (s : State) : Option (Fin 4) := allLoads.find? (fun d => s.loads[d].isNone)

/-- The LOAD_ABORTED record of an abort that is no refusal (R127). -/
def abortRecord (s : State) (r : Download) (reason : Reason) : EventRecord :=
  { time := s.clock, kind := .loadAborted, reason := some reason, slot := some r.controller, source := some r.source,
    extra := some r.byteCount.toNat }

/-- A record aborted: the slot freed and LOAD_ABORTED recorded with its reason (R110, R127). A FREE slot is left. -/
def abortLoad (s : State) (d : Fin 4) (reason : Reason) : State :=
  match s.loads[d] with
  | none => s
  | some r => (s.setLoad d none).record (abortRecord s r reason)

/-- Every record aborted with reason LINK, in ascending Download Slot order (R124). -/
def abortAllLink (s : State) : State := allLoads.foldl (fun s d => abortLoad s d .link) s

/-- A window closure's report (R97, R124): a LOADING record of the slot is aborted with reason WINDOW; an ACTIVATING one,
or none, is left. -/
def abortForWindow (s : State) (slot : Fin 16) : State :=
  match loadOf s slot with
  | none => s
  | some d =>
    match s.loads[d] with
    | some r => if r.state = .loading then abortLoad s d .window else s
    | none => s

/-- The records of changed slots aborted with reason POLICY, in ascending Download Slot order (R125, R142). -/
def abortForPolicy (s : State) (changed : List (Fin 16)) : State :=
  allLoads.foldl (fun s d => match s.loads[d] with
    | some r => if changed.contains r.controller then abortLoad s d .policy else s
    | none => s) s

/-! ### The verdict on a load-class command (R113) -/

/-- The changes a pass makes to its Download Record once the frame clears step 6 (R47). -/
inductive LoadChange where
  /-- a new record, in place of any record there (R114) -/
  | begin
  /-- the segment folded (R116) -/
  | fold (g : Segment)
  /-- the Idle Deadline restarted by a duplicate (R117) -/
  | duplicate
  /-- the record made ACTIVATING (R120) -/
  | activate (image : Fin 32)
  deriving DecidableEq, Repr

/-- A verdict of the Load Checker (R113). A refusal carries its event kind and reason, the record to free at once, and
the Extra of its event (R127). -/
inductive LoadVerdict where
  | pass (d : Fin 4) (change : LoadChange)
  | refusal (kind : EventKind) (reason : Option Reason) (freed : Option (Fin 4)) (extra : Option Nat)
  deriving DecidableEq, Repr

/-- The Approved Image entry an activation matches (R120): the lowest used one whose mask contains the slot and whose
Length and CRC equal the Byte Count and the complemented Running CRC. -/
def matchImage (b : Bank) (slot : Fin 16) (r : Download) : Option (Fin 32) :=
  (List.finRange 32).find? (fun i => isUsed b.images[i].used && maskHas b.images[i].mask slot &&
    b.images[i].length == r.byteCount && b.images[i].crc == ~~~ r.runningCrc)

/-- The verdict on a LOAD_BEGIN (R114). -/
def beginVerdict (s : State) (slot : Fin 16) : LoadVerdict :=
  match loadOf s slot with
  | some d => .pass d .begin
  | none =>
    match freeLoad s with
    | some d => .pass d .begin
    | none => .refusal .loadNoSlot none none none

/-- The refusal that aborts a record (R115 to R118). -/
def abortRefusal (d : Fin 4) (r : Download) (reason : Reason) : LoadVerdict :=
  .refusal .loadAborted (some reason) (some d) (some r.byteCount.toNat)

/-- The verdict on a segment from the record's Source (R116 to R118). -/
def segmentVerdict (d : Fin 4) (r : Download) (g : Segment) : LoadVerdict :=
  if g.number = r.nextExpected then
    if 0xFFFFFFFF < r.byteCount.toNat + g.length.toNat then abortRefusal d r .tooLong
    else .pass d (.fold g)
  else if r.lastNumber = some g.number then
    if g.length = r.lastLength ∧ crc32 g.data = r.lastSegmentCrc then .pass d .duplicate
    else abortRefusal d r .substituted
  else abortRefusal d r .outOfOrder

/-- The verdict on an activation from the record's Source (R120). -/
def activateVerdict (b : Bank) (slot : Fin 16) (d : Fin 4) (r : Download) : LoadVerdict :=
  match matchImage b slot r with
  | some i => .pass d (.activate i)
  | none => .refusal .loadRejected none (some d) (some r.byteCount.toNat)

/-- The orphan refusal (R119). -/
def orphanVerdict : LoadVerdict := .refusal .loadOrphan none none none

/-- The verdict of the Load Checker on a load-class command (R113 to R120). A LOAD_SEGMENT without segment fields cannot
come from a slot with Image Check ON in an active bank (R136); it is taken as out of order (log entry 22). -/
def loadVerdict (s : State) (c : Command) : LoadVerdict :=
  if c.cls = .loadBegin then beginVerdict s c.slot
  else
    match loadOf s c.slot with
    | none => orphanVerdict
    | some d =>
      match s.loads[d] with
      | none => orphanVerdict
      | some r =>
        if r.state ≠ .loading then orphanVerdict
        else if r.source ≠ c.source then abortRefusal d r .sourceChanged
        else if c.cls = .loadActivate then activateVerdict s.activeBank c.slot d r
        else
          match c.segment with
          | some g => segmentVerdict d r g
          | none => abortRefusal d r .outOfOrder

/-- The fields of a record at its creation (R110, R114). -/
def newDownload (s : State) (c : Command) : Download where
  controller := c.slot
  state := .loading
  source := c.source
  nextExpected := c.profile.firstSegment.setWidth 16
  idleDeadline := s.clock + loadIdleMs c.profile

/-- A record after a folded segment (R116). -/
def foldSegment (s : State) (c : Command) (r : Download) (g : Segment) : Download :=
  { r with
    runningCrc := crcFold r.runningCrc g.data
    byteCount := r.byteCount + g.length.setWidth 32
    lastNumber := some g.number
    lastLength := g.length
    lastSegmentCrc := crc32 g.data
    nextExpected := g.number + 1
    idleDeadline := s.clock + loadIdleMs c.profile }

/-- The changes of a pass (R47, R114, R116, R117, R120) at the command's arrival. -/
def applyLoadChange (s : State) (c : Command) (d : Fin 4) (change : LoadChange) : State :=
  match change with
  | .begin =>
    let s1 := abortLoad s d .restarted
    (s1.setLoad d (some (newDownload s c))).record
      { time := s.clock, kind := .loadStarted, slot := some c.slot, source := some c.source }
  | .fold g =>
    match s.loads[d] with
    | some r => s.setLoad d (some (foldSegment s c r g))
    | none => s
  | .duplicate =>
    match s.loads[d] with
    | some r => s.setLoad d (some { r with idleDeadline := s.clock + loadIdleMs c.profile })
    | none => s
  | .activate i =>
    match s.loads[d] with
    | some r =>
      s.setLoad d (some { r with
        state := .activating i
        idleDeadline := s.clock + responseTimeoutMs c.profile + loadIdleMs c.profile })
    | none => s

/-- The abort or freeing a refusal carries, made at once in both modes (R47, R113). -/
def applyRefusal (s : State) (freed : Option (Fin 4)) : State :=
  match freed with
  | some d => s.setLoad d none
  | none => s

/-! ### Reports from the Transaction Tracker (R122) -/

/-- The LOAD_ACCEPTED or LOAD_FAILED record of an activation (R127). -/
def activationRecord (kind : EventKind) (time : Nat) (r : Download) (image : Fin 32) : EventRecord :=
  { time := time, kind := kind, slot := some r.controller, source := some r.source, extra := some image.val }

/-- A report on a load-kind entry (R122): applied when the Download Slot holds a record of the report's controller in the
State the kind needs, and ignored otherwise. NEGATIVE and TIMEOUT have the same effect. -/
def applyReport (s : State) (slot : Fin 16) (d : Fin 4) (kind : EntryKind) (positive : Bool) : State :=
  match s.loads[d] with
  | none => s
  | some r =>
    if r.controller ≠ slot then s
    else
      match kind, r.state with
      | .begin, .loading => if positive then s else abortLoad s d .refusedByController
      | .segment, .loading =>
        if positive then s
        else
          let left : Fin 4 := ⟨r.retryAllowance.val - 1, by omega⟩
          let s1 := s.setLoad d (some { r with retryAllowance := left })
          if left = 0 then abortLoad s1 d .retries else s1
      | .activate, .activating i =>
        (s.setLoad d none).record (activationRecord (if positive then .loadAccepted else .loadFailed) s.clock r i)
      | _, _ => s

/-- The idle expiry of a Download Record (R123): taken when the clock has reached the Idle Deadline the record holds. -/
def idleExpire (s : State) (d : Fin 4) : State :=
  match s.loads[d] with
  | none => s
  | some r => if r.idleDeadline ≤ s.clock then abortLoad s d .idle else s

end Sys2Proof.Machine
end

