-- ==== Sys2Proof/Machine/Windows.lean ====
section
/-! DEFINITION. The Window Unit: guard states, window closures, the permit filter, the violation score, freezing and ALERT
(06 R92 to R109). -/

namespace Sys2Proof.Machine

open Sys2Proof

/-- What the Window Unit holds for a slot replaced. -/
def State.setGuard (s : State) (i : Fin 16) (g : Option SlotGuard) : State :=
  { s with guards := s.guards.set i g }

/-- The guard state of a slot, if it has one (R92). -/
def guardOf (s : State) (i : Fin 16) : Option GuardState := s.guards[i].map (·.state)

/-- The slot is in WINDOW. -/
def inWindow (s : State) (i : Fin 16) : Bool :=
  match guardOf s i with
  | some (.window _) => true
  | some .normal => false
  | some .frozen => false
  | none => false

/-- The slot is FROZEN. -/
def isFrozen (s : State) (i : Fin 16) : Bool := guardOf s i == some .frozen

/-- At least one slot is FROZEN (R106). -/
def anyFrozen (s : State) : Bool := allSlots.any (isFrozen s)

/-- ALERT set by the guard states (R106). -/
def setAlert (s : State) : State := { s with alert := anyFrozen s }

/-- The guard of a slot that begins NORMAL: interval count 0 and a history of eight zeros (R92, R107). -/
def freshGuard : SlotGuard := {}

/-- The guard state of a slot changed, its score kept. -/
def withGuardState (s : State) (i : Fin 16) (g : GuardState) : State :=
  match s.guards[i] with
  | some sg => s.setGuard i (some { sg with state := g })
  | none => s

/-- One window closed (R97): the slot leaves WINDOW, its deadline is dropped, WINDOW_CLOSED is recorded, and the closure
is reported to the Load Checker unless the reason is POLICY. A slot that is not in WINDOW is left. -/
def closeWindow (s : State) (i : Fin 16) (reason : Reason) (source : Option MacAddress) : State :=
  if inWindow s i then
    let s1 := (withGuardState s i .normal).record
      { time := s.clock, kind := .windowClosed, reason := some reason, slot := some i, source := source }
    if reason = .policy then s1 else abortForWindow s1 i
  else s

/-- Windows of several slots closed in their order. -/
def closeWindows (s : State) (l : List (Fin 16)) (reason : Reason) (source : Option MacAddress) : State :=
  l.foldl (fun s i => closeWindow s i reason source) s

/-- The expiry of a slot's window (R93): taken when the clock has reached the deadline and the slot is in WINDOW. -/
def windowExpire (s : State) (i : Fin 16) : State :=
  match guardOf s i with
  | some (.window d) => if d ≤ s.clock then closeWindow s i .expired none else s
  | some .normal => s
  | some .frozen => s
  | none => s

/-! ### The permit filter -/

/-- The CHG_PERMIT pin takes a level (R98): a level away from the filtered permit begins a 20 ms period, and a return to
it cancels the period. -/
def permitPin (s : State) (high : Bool) : State :=
  if high = s.chgPermit then s
  else
    { s with
      chgPermit := high
      permitPeriod := if s.resetN ∧ high ≠ s.permit then some (s.clock + stabilityMs) else none }

/-- The end of the stability period (R98): the filtered permit takes the pin level. Taking DEASSERTED closes every window
with reason PERMIT, in ascending slot order (R99). -/
def permitExpire (s : State) : State :=
  match s.permitPeriod with
  | some t =>
    if t ≤ s.clock then
      let s1 := { s with permit := s.chgPermit, permitPeriod := none }
      if s.chgPermit then s1 else closeWindows s1 allSlots .permit none
    else s
  | none => s

/-! ### The violation score -/

/-- A violation handed over (R100): the interval count of a NORMAL or WINDOW slot goes up by 1 and stays at 255; that of
a FROZEN slot does not change. -/
def countViolation (s : State) (i : Fin 16) : State :=
  match s.guards[i] with
  | some g =>
    if g.state = .frozen then s
    else
      s.setGuard i (some { g with intervalCount := if g.intervalCount = 255 then 255 else g.intervalCount + 1 })
  | none => s

/-- The score average: the sum of the most recent `n` counts divided by `n`, rounded down (R101). -/
def scoreAverage (history : List Byte) (n : Nat) : Nat :=
  ((history.drop (history.length - n)).map BitVec.toNat).sum / n

/-- A slot frozen (R103, R104): its window, if any, closed with reason FROZEN; then FROZEN, the FROZEN record with the
average in Extra, and ALERT asserted (R106). -/
def freezeSlot (s : State) (i : Fin 16) (average : Nat) : State :=
  let s1 := closeWindow s i .frozen none
  let s2 := withGuardState s1 i .frozen
  { s2.record { time := s2.clock, kind := .frozen, slot := some i, extra := some average } with alert := true }

/-- One slot at an interval expiry (R102): a NORMAL or WINDOW slot's count enters its history, the count returns to 0, the
average is formed, and the slot is frozen when its threshold is above 0 and met. A FROZEN slot is passed over. -/
def scoreSlot (s : State) (i : Fin 16) : State :=
  match s.guards[i] with
  | some g =>
    if g.state = .frozen then s
    else
      let c := s.activeBank.controllers[i]
      let history := g.history.drop 1 ++ [g.intervalCount]
      let average := scoreAverage history c.scoreWindow.toNat
      let s1 := s.setGuard i (some { g with history := history, intervalCount := 0, lastAverage := average })
      if 0 < c.freezeThreshold.toNat ∧ c.freezeThreshold.toNat ≤ average then freezeSlot s1 i average else s1
  | none => s

/-- The expiry of the interval timer (R101, R102): every used slot in ascending order, and the next expiry 1000 ms
later. -/
def intervalExpire (s : State) : State :=
  match s.intervalNext with
  | some t =>
    if t ≤ s.clock then
      { (usedSlots s.activeBank).foldl scoreSlot s with intervalNext := some (t + 1000) }
    else s
  | none => s

/-- A FROZEN slot returned to NORMAL by THAW (R105): score cleared and one THAWED record. Any other slot is left. -/
def thawSlot (s : State) (i : Fin 16) (source : Option MacAddress) : State :=
  if isFrozen s i then
    (s.setGuard i (some freshGuard)).record { time := s.clock, kind := .thawed, slot := some i, source := source }
  else s

/-! ### A commit (R107) -/

/-- What the Window Unit does to a changed slot: a window closed with reason POLICY, a FROZEN slot returned to NORMAL with
a THAWED record, and then a fresh guard or none by the slot's use in the new bank. -/
def commitSlot (usedNew : Bool) (s : State) (i : Fin 16) : State :=
  let s1 := thawSlot (closeWindow s i .policy none) i none
  s1.setGuard i (if usedNew then some freshGuard else none)

end Sys2Proof.Machine
end

