-- ==== Sys2Proof/Machine/Tracker.lean ====
section
/-! DEFINITION. The Transaction Tracker: the Outstanding Table, response matching, deadlines and the Shadow Store
(05 R73 to R91). -/

namespace Sys2Proof.Machine

open Sys2Proof

/-- The Outstanding Table's capacity (R73). -/
def outstandingCapacity : Nat := 64

/-- The Shadow Store's capacity (R86). -/
def shadowCapacity : Nat := 512

/-! ### The Shadow Store -/

/-- The reference of a slot and object: the value of the entry with that key (R60). -/
def reference (s : State) (slot : Fin 16) (object : BitVec 32) : Option Int :=
  (s.shadow.find? (fun e => e.slot == slot && e.object == object)).map (·.value)

/-- The entries without the one of a key. -/
def withoutKey (l : List ShadowEntry) (slot : Fin 16) (object : BitVec 32) : List ShadowEntry :=
  l.filter (fun e => !(e.slot == slot && e.object == object))

/-- An entry written at the most recent end (R87, R88): it takes the place of the entry with its key, or, at 512 entries,
of the least recently updated one (R89). -/
def shadowInsert (l : List ShadowEntry) (e : ShadowEntry) : List ShadowEntry :=
  let others := withoutKey l e.slot e.object
  (if others.length = l.length ∧ shadowCapacity ≤ l.length then others.drop 1 else others) ++ [e]

/-- A value written to the Shadow Store at this instant. -/
def writeShadow (s : State) (slot : Fin 16) (object : BitVec 32) (value : Int) (origin : Origin) : State :=
  { s with shadow := shadowInsert s.shadow ⟨slot, object, value, origin, s.clock⟩ }

/-! ### The Outstanding Table -/

/-- An entry has a key. -/
def hasKey (slot : Fin 16) (tag : BitVec 32) (e : Outstanding) : Bool := e.slot == slot && e.tag == tag

/-- The entry with a key: at most one (R73). -/
def findEntry (s : State) (slot : Fin 16) (tag : BitVec 32) : Option Outstanding :=
  s.outstanding.find? (hasKey slot tag)

/-- The table without the entry of a key. -/
def removeEntry (s : State) (slot : Fin 16) (tag : BitVec 32) : State :=
  { s with outstanding := s.outstanding.filter (fun e => !hasKey slot tag e) }

/-- There is room for a key: it is held, or the table holds fewer than 64 entries (R75). -/
def hasRoom (s : State) (slot : Fin 16) (tag : BitVec 32) : Bool :=
  (findEntry s slot tag).isSome || s.outstanding.length < outstandingCapacity

/-- An entry made; one with the same key is removed without effect (R75, R76). -/
def makeEntry (s : State) (e : Outstanding) : State :=
  { s with outstanding := s.outstanding.filter (fun x => !hasKey e.slot e.tag x) ++ [e] }

/-- The RESPONSE_NEGATIVE or RESPONSE_TIMEOUT record of an entry (R82). -/
def entryRecord (kind : EventKind) (time : Nat) (e : Outstanding) : EventRecord :=
  { time := time, kind := kind, slot := some e.slot, source := some e.address, object := e.object,
    forwarded := e.forwarded, extra := some e.tag.toNat }

/-- The effect of a negative response on an entry already removed (R79). -/
def negativeEffect (s : State) (e : Outstanding) : State :=
  match e.kind, e.downloadSlot with
  | .write, _ => s.record (entryRecord .responseNegative s.clock e)
  | .read, _ => s.record (entryRecord .responseNegative s.clock e)
  | k, some d => applyReport s e.slot d k false
  | _, none => s.record (entryRecord .responseNegative s.clock e)

/-- The effect of a positive response on an entry already removed (R78, R87, R88). `value` is the Response Value of the
response when it is complete (R32). -/
def positiveEffect (s : State) (e : Outstanding) (value : ValueType → Option Int) : State :=
  match e.kind with
  | .write =>
    match e.forwarded, e.object with
    | some v, some o => writeShadow s e.slot o v .confirmed
    | _, _ => s
  | .read =>
    match e.valueType, e.object with
    | some t, some o =>
      match value t with
      | some v => writeShadow s e.slot o v .learned
      | none => negativeEffect s e
    | _, _ => negativeEffect s e
  | k =>
    match e.downloadSlot with
    | some d => applyReport s e.slot d k true
    | none => s

/-- A response matched (R77 to R79) under the Profile of its slot: the entry with the slot and tag is removed and the
outcome has its effect; a response with no tag or no entry changes nothing. -/
def matchResponse (s : State) (slot : Fin 16) (p : Profile) (payload : List Byte) : State :=
  match readTag p payload with
  | none => s
  | some tag =>
    match findEntry s slot tag with
    | none => s
    | some e =>
      let s1 := removeEntry s slot tag
      if responsePositive p payload then positiveEffect s1 e (readValue p payload p.responseValueOffset)
      else negativeEffect s1 e

/-- The expiry of an entry (R80): taken when the clock has reached its Deadline and it is still in the table. It is
removed, RESPONSE_TIMEOUT is recorded with the Deadline as its time, and a load-kind entry reports TIMEOUT. -/
def responseExpire (s : State) (slot : Fin 16) (tag : BitVec 32) : State :=
  match findEntry s slot tag with
  | none => s
  | some e =>
    if e.deadline ≤ s.clock then
      let s1 := (removeEntry s slot tag).record (entryRecord .responseTimeout e.deadline e)
      match e.kind, e.downloadSlot with
      | .write, _ => s1
      | .read, _ => s1
      | k, some d => applyReport s1 slot d k false
      | _, none => s1
    else s

/-- CELL DOWN (R84): every Outstanding entry discarded without effect, every Shadow Store entry removed. -/
def trackerCellDown (s : State) : State := { s with outstanding := [], shadow := [] }

/-- A commit's changed slots (R85): their Outstanding and Shadow Store entries removed without effect. -/
def trackerPolicy (s : State) (changed : List (Fin 16)) : State :=
  { s with
    outstanding := s.outstanding.filter (fun e => !changed.contains e.slot)
    shadow := s.shadow.filter (fun e => !changed.contains e.slot) }

/-- Shadow entries in ascending order of Object (R91). -/
def insertByObject (e : ShadowEntry) : List ShadowEntry → List ShadowEntry
  | [] => [e]
  | x :: rest => if e.object.toNat ≤ x.object.toNat then e :: x :: rest else x :: insertByObject e rest

/-- The entries of a slot whose Object is at least First Object, in ascending order of Object (R91). -/
def shadowFrom (s : State) (slot : Fin 16) (first : BitVec 32) : List ShadowEntry :=
  (s.shadow.filter (fun e => e.slot == slot && first.toNat ≤ e.object.toNat)).foldr insertByObject []

end Sys2Proof.Machine
end

