-- ==== Sys2Proof/Machine/Decide.lean ====
section
/-! DEFINITION. The Rule Engine: the chain walk, the rule actions, the decision order for a COMMAND in both modes, and the
application of decisions with their events, counters and violations (03 R39 to R54). -/

namespace Sys2Proof.Machine

open Sys2Proof

/-! ### The chain walk -/

/-- A source's group set: the Groups of the used Source entry with its address, else empty (R37). -/
def sourceGroups (b : Bank) (a : MacAddress) : Byte :=
  match (List.finRange 32).find? (fun i => isUsed b.sources[i].used && b.sources[i].address == a) with
  | some i => b.sources[i].groups
  | none => 0

/-- A rule matches (R39): its Class Set has the class; the object lies in its range, for the classes that have one; its
Source Groups is empty or shares a group with the source. -/
def ruleMatches (r : Rule) (cls : CommandClass) (object : BitVec 32) (groups : Byte) : Bool :=
  classSetHas r.classSet cls &&
  (!hasObject cls || (r.objectFirst.toNat ≤ object.toNat && object.toNat ≤ r.objectLast.toNat)) &&
  (r.groups == 0 || r.groups &&& groups != 0)

/-- One chain walked from a head, at most `n` rules (R40): the first rule that matches. -/
def walkChain (b : Bank) (cls : CommandClass) (object : BitVec 32) (groups : Byte) : Nat → BitVec 16 → Option (Fin 256)
  | 0, _ => none
  | n + 1, h =>
    match ruleIndex h with
    | none => none
    | some i =>
      if !isUsed b.rules[i].used then none
      else if ruleMatches b.rules[i] cls object groups then some i
      else walkChain b cls object groups n b.rules[i].next

/-- The controller chain and then the common chain (R40). -/
def firstMatch (b : Bank) (slot : Fin 16) (cls : CommandClass) (object : BitVec 32) (groups : Byte) :
    Option (Fin 256) :=
  match walkChain b cls object groups 256 b.controllers[slot].chainHead with
  | some i => some i
  | none => walkChain b cls object groups 256 b.commonHead

/-- The rule that decides a command; none for the class default (R40, R41). -/
def decidingRule (b : Bank) (c : Command) : Option (Fin 256) :=
  firstMatch b c.slot c.cls c.object (sourceGroups b c.source)

/-- The Value Type of the rule that covers a READ (R49): the first match as WRITE_VALUE is a BOUND rule with Step above
0. -/
def coverage (b : Bank) (c : Command) : Option ValueType :=
  match firstMatch b c.slot .writeValue c.object (sourceGroups b c.source) with
  | some i =>
    if b.rules[i].action = 3 ∧ 0 < b.rules[i].step.toNat then valueTypeOfByte b.rules[i].valueType else none
  | none => none

/-! ### Outcomes that end a decision in ENFORCE (R45) -/

/-- The outcomes of steps 1 to 6 that would end the decision in ENFORCE, with the fields their records need (R52). -/
inductive Ending where
  | malformed (reason : Reason) (rule : Option (Fin 256)) (requested : Option Int)
  | denied (reason : Reason) (rule : Option (Fin 256))
  | valueRefused (reason : Reason) (rule : Fin 256) (requested : Int)
  | load (kind : EventKind) (reason : Option Reason) (rule : Option (Fin 256)) (extra : Option Nat)
  | trackFull (rule : Option (Fin 256)) (requested : Option Int) (forwarded : Option Int)
  deriving DecidableEq, Repr

/-- The event record of an ending (R52, R127). Load Checker records carry no object. -/
def endingRecord (time : Nat) (slot : Option (Fin 16)) (source : MacAddress) (object : Option (BitVec 32)) :
    Ending → EventRecord
  | .malformed reason rule requested =>
    { time := time, kind := .malformed, reason := some reason, slot := slot, rule := rule, source := some source,
      object := object, requested := requested }
  | .denied reason rule =>
    { time := time, kind := .denied, reason := some reason, slot := slot, rule := rule, source := some source,
      object := object }
  | .valueRefused reason rule requested =>
    { time := time, kind := .valueRefused, reason := some reason, slot := slot, rule := some rule,
      source := some source, object := object, requested := some requested }
  | .load kind reason rule extra =>
    { time := time, kind := kind, reason := reason, slot := slot, rule := rule, source := some source, extra := extra }
  | .trackFull rule requested forwarded =>
    { time := time, kind := .trackFull, slot := slot, rule := rule, source := some source, object := object,
      requested := requested, forwarded := forwarded }

/-- The PASSIVE counterpart of a decision's record (R52): the same fields, with WOULD_REFUSE for VALUE_REFUSED,
WOULD_CLAMP for VALUE_CLAMPED and WOULD_DENY for every other, whose reason is that of the event replaced or names its
kind. -/
def passiveRecord (e : EventRecord) : EventRecord :=
  match e.kind with
  | .valueRefused => { e with kind := .wouldRefuse }
  | .valueClamped => { e with kind := .wouldClamp }
  | .trackFull => { e with kind := .wouldDeny, reason := some .trackFull }
  | .loadNoSlot => { e with kind := .wouldDeny, reason := some .loadNoSlot }
  | .loadOrphan => { e with kind := .wouldDeny, reason := some .loadOrphan }
  | .loadRejected => { e with kind := .wouldDeny, reason := some .loadRejected }
  | _ => { e with kind := .wouldDeny }

/-- The endings that are violations (R53): MALFORMED with a controller, DENIED by a rule, NO_WINDOW or default,
VALUE_REFUSED, and Load Checker refusals other than LOAD_NO_SLOT. -/
def isViolation : Ending → Bool
  | .malformed _ _ _ => true
  | .denied .rule _ => true
  | .denied .noWindow _ => true
  | .denied .default _ => true
  | .denied _ _ => false
  | .valueRefused _ _ _ => true
  | .load .loadNoSlot _ _ _ => false
  | .load _ _ _ _ => true
  | .trackFull _ _ _ => false

/-- MALFORMED endings are counted in Guard Drops (R51). -/
def isMalformed : Ending → Bool
  | .malformed _ _ _ => true
  | .denied _ _ => false
  | .valueRefused _ _ _ => false
  | .load _ _ _ _ => false
  | .trackFull _ _ _ => false

/-! ### Decision counters (R54) -/

/-- A frame's decision (R45). -/
inductive Decision where
  | permit
  | clamp
  | ends (e : Ending)
  deriving DecidableEq, Repr

/-- The counter of a decision goes up by 1 (R54). -/
def bumpDecision (k : DecisionCounters) : Decision → DecisionCounters
  | .permit => { k with permitted := satAdd k.permitted 1 }
  | .clamp => { k with clamped := satAdd k.clamped 1 }
  | .ends (.valueRefused _ _ _) => { k with refused := satAdd k.refused 1 }
  | .ends _ => { k with denied := satAdd k.denied 1 }

/-- The decision counted for its slot (R54). -/
def countDecision (s : State) (slot : Fin 16) (d : Decision) : State :=
  { s with decisions := s.decisions.set slot (bumpDecision s.decisions[slot] d) }

/-! ### Step 4: the action -/

/-- The result of step 4: an ending, or a permit or clamp; the value a BOUND rule decoded; and the admissible value of a
clamp. -/
structure Action where
  ending : Option Ending := none
  value : Option (ValueType × Int) := none
  clampTo : Option Int := none
  deriving DecidableEq, Repr

/-- The received UDP checksum must be verified and fails (R70): outcome CLAMP, UDP kind, ENFORCE, received checksum not
0000H. -/
def checksumFails (s : State) (c : Command) (l : Layers) : Bool :=
  s.mode == .enforce && c.profile.kind == 1 &&
    match readUdp l with
    | some u => u.checksum != 0 && !checksumPasses u
    | none => false

/-- The action of a BOUND rule (R44, R66): Free In Window, the width test (R29), the evaluation, and the checksum
verification of a clamp. -/
def boundAction (s : State) (c : Command) (l : Layers) (i : Fin 256) : Action :=
  let r := s.activeBank.rules[i]
  if r.freeInWindow = 1 ∧ inWindow s c.slot then {}
  else
    match valueTypeOfByte r.valueType with
    -- a Value Type no code names: R139 keeps it out of an active bank (log entry 22)
    | none => { ending := some (.denied .rule (some i)) }
    | some t =>
      match readValue c.profile c.payload.bytes c.profile.valueOffset t with
      | none => { ending := some (.malformed .short (some i) none) }
      | some v =>
        match boundOutcome (boundRuleOf t r) (reference s c.slot c.object) v with
        | .permit => { value := some (t, v) }
        | .clamp q =>
          if checksumFails s c l then
            { ending := some (.malformed .badChecksum (some i) (some v)), value := some (t, v) }
          else { value := some (t, v), clampTo := some q }
        | .outOfBand => { ending := some (.valueRefused .outOfBand i v), value := some (t, v) }
        | .noAdmissible => { ending := some (.valueRefused .noAdmissible i v), value := some (t, v) }

/-- The action on a command under its deciding rule (R41 to R44). An Action no code names denies (log entry 22). -/
def actionStep (s : State) (c : Command) (l : Layers) (rule : Option (Fin 256)) : Action :=
  match rule with
  | none => if c.cls = .read then {} else { ending := some (.denied .default none) }
  | some i =>
    match s.activeBank.rules[i].action.toNat with
    | 0 => {}
    | 2 => if inWindow s c.slot then {} else { ending := some (.denied .noWindow (some i)) }
    | 3 => boundAction s c l i
    | _ => { ending := some (.denied .rule (some i)) }

/-- The value the command carries as it leaves the part (R67, R74): `q` for a clamp in ENFORCE, the requested value
otherwise; none when no BOUND rule decoded it. -/
def forwardedValue (s : State) (a : Action) : Option Int :=
  match a.value, a.clampTo with
  | some _, some q => if s.mode = .enforce then some q else a.value.map (·.2)
  | some (_, v), none => some v
  | none, _ => none

/-! ### Step 5: the load check -/

/-- The verdict of step 5, for a load-class command to a slot with Image Check ON (R47). -/
def loadStep (s : State) (c : Command) : Option LoadVerdict :=
  if isLoadClass c.cls && imageCheckOn c.controller then some (loadVerdict s c) else none

/-! ### Step 6: tracking -/

/-- The entry kind of a class (R74); none for the classes that are not tracked. -/
def entryKindOf : CommandClass → Option EntryKind
  | .read => some .read
  | .writeValue => some .write
  | .writeOther => none
  | .control => none
  | .loadBegin => some .begin
  | .loadSegment => some .segment
  | .loadActivate => some .activate

/-- The Outstanding entry a command asks for (R48, R49, R74): none for a class that is not tracked, a profile or command
with no tag, and a READ that is not covered. -/
def trackRequest (s : State) (c : Command) (a : Action) (d : Option (Fin 4)) : Option Outstanding :=
  match entryKindOf c.cls, c.tag with
  | some .read, some tag =>
    match coverage s.activeBank c with
    | some t =>
      some { slot := c.slot, address := c.controller.address, tag := tag, kind := .read, object := some c.object,
             valueType := some t, deadline := s.clock + responseTimeoutMs c.profile }
    | none => none
  | some .write, some tag =>
    some { slot := c.slot, address := c.controller.address, tag := tag, kind := .write, object := some c.object,
           forwarded := forwardedValue s a, valueType := a.value.map (·.1),
           deadline := s.clock + responseTimeoutMs c.profile }
  | some k, some tag =>
    some { slot := c.slot, address := c.controller.address, tag := tag, kind := k, downloadSlot := d,
           deadline := s.clock + responseTimeoutMs c.profile }
  | _, _ => none

/-- Step 6 (R48, R49, R75): the state with the entry made, and whether the command met TRACK_FULL. A READ that finds no
room goes untracked. -/
def trackStep (s : State) (c : Command) (a : Action) (d : Option (Fin 4)) : State × Bool :=
  match trackRequest s c a d with
  | none => (s, false)
  | some e => if hasRoom s e.slot e.tag then (makeEntry s e, false) else (s, e.kind != .read)

/-- The ending of a command that met TRACK_FULL (R52): the forwarded value is the value the entry would have held (R74).
DESIGN CHOICE (log entry 35): that of a clamp in PASSIVE is the requested value (R67), where R52 also gives a counterpart
the same fields as the event it replaces, and that one carries `q`. -/
def trackFullEnding (s : State) (a : Action) (rule : Option (Fin 256)) : Ending :=
  .trackFull rule (a.value.map (·.2)) (forwardedValue s a)

/-! ### Application -/

/-- An ending applied in ENFORCE (R51, R53, R54): the event recorded, the Denied or Refused counter, the violation, and
Guard Drops for MALFORMED; the frame is dropped. -/
def applyEnding (s : State) (slot : Fin 16) (source : MacAddress) (object : Option (BitVec 32)) (e : Ending) : State :=
  let s1 := s.record (endingRecord s.clock (some slot) source object e)
  let s2 := countDecision s1 slot (.ends e)
  let s3 := if isViolation e then countViolation s2 slot else s2
  if isMalformed e then countGuardDrop s3 .net else s3

/-- The VALUE_CLAMPED record (R52). -/
def clampRecord (s : State) (c : Command) (rule : Option (Fin 256)) (v q : Int) : EventRecord :=
  { time := s.clock, kind := .valueClamped, slot := some c.slot, rule := rule, source := some c.source,
    object := eventObject c, requested := some v, forwarded := some q }

/-- A command no step ended, placed in ENFORCE (R51): rewritten and recorded for a clamp, else unchanged. -/
def placeDecided (s : State) (c : Command) (frame : List Byte) (rule : Option (Fin 256)) (a : Action) : State :=
  match a.value, a.clampTo with
  | some (t, v), some q =>
    let s1 := s.record (clampRecord s c rule v q)
    forwardFrame (countDecision s1 c.slot .clamp) .cell (withFcs (rewriteFrame c (withoutFcs frame) t q))
  | _, _ => forwardFrame (countDecision s c.slot .permit) .cell frame

/-- The changes of a pass, if the command had a verdict. -/
def applyPass (s : State) (c : Command) : Option (Fin 4 × LoadChange) → State
  | some (d, change) => applyLoadChange s c d change
  | none => s

/-- Steps 6 and 7 in ENFORCE for a command that steps 1 to 5 passed (R45, R47): TRACK_FULL leaves every record as it was;
otherwise the entry is made, the pass's changes are made, and the frame is placed. -/
def enforceTrack (s : State) (c : Command) (frame : List Byte) (rule : Option (Fin 256)) (a : Action)
    (pass : Option (Fin 4 × LoadChange)) : State :=
  let tracked := trackStep s c a (pass.map (·.1))
  if tracked.2 then applyEnding s c.slot c.source (eventObject c) (trackFullEnding s a rule)
  else placeDecided (applyPass tracked.1 c pass) c frame rule a

/-- Steps 2 to 7 in ENFORCE (R45): the first step that ends the decision ends it. -/
def enforceCommand (s : State) (c : Command) (l : Layers) (frame : List Byte) : State :=
  if isFrozen s c.slot ∧ c.cls ≠ .read then
    applyEnding s c.slot c.source (eventObject c) (.denied .frozen none)
  else
    let rule := decidingRule s.activeBank c
    let a := actionStep s c l rule
    match a.ending with
    | some e => applyEnding s c.slot c.source (eventObject c) e
    | none =>
      match loadStep s c with
      | some (.refusal kind reason freed extra) =>
        applyEnding (applyRefusal s freed) c.slot c.source none (.load kind reason rule extra)
      | some (.pass d change) => enforceTrack s c frame rule a (some (d, change))
      | none => enforceTrack s c frame rule a none

/-- An ending noted in PASSIVE: its counterpart recorded (R52). -/
def noteEnding (s : State) (slot : Fin 16) (source : MacAddress) (object : Option (BitVec 32)) : Option Ending → State
  | some e => s.record (passiveRecord (endingRecord s.clock (some slot) source object e))
  | none => s

/-- Step 5 in PASSIVE (R47, R126): a pass makes its changes and names the Download Slot; a refusal makes its abort or
freeing and is noted as WOULD_DENY. -/
def passiveLoad (s : State) (c : Command) (rule : Option (Fin 256)) : State × Option (Fin 4) × Option Ending :=
  match loadStep s c with
  | some (.refusal kind reason freed extra) =>
    let e : Ending := .load kind reason rule extra
    (noteEnding (applyRefusal s freed) c.slot c.source none (some e), none, some e)
  | some (.pass d change) => (applyLoadChange s c d change, some d, none)
  | none => (s, none, none)

/-- The decision of a frame in PASSIVE (R45): the first ending of its steps, else clamp, else permit. -/
def passiveDecision (endings : List (Option Ending)) (clamped : Bool) : Decision :=
  match endings.findSome? id with
  | some e => .ends e
  | none => if clamped then .clamp else .permit

/-- The WOULD_CLAMP record of a clamp in PASSIVE (R52). -/
def noteClamp (s : State) (c : Command) (rule : Option (Fin 256)) (a : Action) : State :=
  match a.value, a.clampTo with
  | some (_, v), some q => s.record (passiveRecord (clampRecord s c rule v q))
  | _, _ => s

/-- Steps 5 to 7 in PASSIVE (R45), after the endings of steps 2 and 4. DEDUCED (log entry 20): a clamp counts in Clamped
whatever the received UDP checksum, which is verified in ENFORCE alone. -/
def passiveRest (s : State) (c : Command) (frame : List Byte) (rule : Option (Fin 256)) (a : Action)
    (frozen : Option Ending) : State :=
  let (s1, d, refused) := passiveLoad s c rule
  let tracked := trackStep s1 c a d
  let full := if tracked.2 then some (trackFullEnding s a rule) else none
  let s2 := noteEnding tracked.1 c.slot c.source (eventObject c) full
  let s3 := countDecision s2 c.slot (passiveDecision [frozen, a.ending, refused, full] a.clampTo.isSome)
  forwardFrame s3 .cell frame

/-- Steps 2 to 7 in PASSIVE (R45, R46): every outcome that would end the decision is recorded as its counterpart, and the
steps go on; MALFORMED alone stops them. The frame is placed unchanged. -/
def passiveCommand (s : State) (c : Command) (l : Layers) (frame : List Byte) : State :=
  let frozen : Option Ending := if isFrozen s c.slot ∧ c.cls ≠ .read then some (.denied .frozen none) else none
  let s1 := noteEnding s c.slot c.source (eventObject c) frozen
  let rule := decidingRule s.activeBank c
  let a := actionStep s c l rule
  let s2 := noteClamp (noteEnding s1 c.slot c.source (eventObject c) a.ending) c rule a
  match a.ending with
  | some (.malformed _ _ _) =>
    forwardFrame (countDecision s2 c.slot (passiveDecision [frozen, a.ending] false)) .cell frame
  | _ => passiveRest s2 c frame rule a frozen

/-- An ending of step 1, or of an UNGUARDED frame, applied in the device mode (R51). -/
def applyByMode (s : State) (slot : Fin 16) (source : MacAddress) (object : Option (BitVec 32)) (e : Ending)
    (frame : List Byte) : State :=
  if s.mode = .enforce then applyEnding s slot source object e
  else forwardFrame (countDecision (noteEnding s slot source object (some e)) slot (.ends e)) .cell frame

/-- A COMMAND decided at its arrival (R45). -/
def decideCommand (s : State) (slot : Fin 16) (i : Fin 8) (p : Profile) (l : Layers) (frame : List Byte) : State :=
  match parseCommand s.activeBank slot i p l with
  | .malformed reason object => applyByMode s slot l.source object (.malformed reason none none) frame
  | .command c => if s.mode = .enforce then enforceCommand s c l frame else passiveCommand s c l frame

/-- A downstream UNGUARDED frame decided by the slot's Unknown Traffic (R50): DROP denies with reason UNGUARDED, PASS
permits without an event. -/
def decideUnguarded (s : State) (slot : Fin 16) (source : MacAddress) (frame : List Byte) : State :=
  if s.activeBank.controllers[slot].unknownTraffic = 1 then
    applyByMode s slot source none (.denied .unguarded none) frame
  else forwardFrame (countDecision s slot .permit) .cell frame

/-- The MALFORMED record of a BROADCAST_COMMAND (R17): the source alone. -/
def broadcastRecord (s : State) (source : MacAddress) : EventRecord :=
  { time := s.clock, kind := .malformed, reason := some .broadcastCommand, source := some source }

/-- A BROADCAST_COMMAND (R17): dropped and counted in Guard Drops in ENFORCE, placed unchanged in PASSIVE. -/
def decideBroadcast (s : State) (source : MacAddress) (frame : List Byte) : State :=
  if s.mode = .enforce then countGuardDrop (s.record (broadcastRecord s source)) .net
  else forwardFrame (s.record (passiveRecord (broadcastRecord s source))) .cell frame

end Sys2Proof.Machine
end

