-- ==== Sys2Proof/Machine/Arrival.lean ====
section
/-! DEFINITION. The arrival of a frame that is not MGMT: the room check, classification and what follows by kind
(01 R3 to R18). -/

namespace Sys2Proof.Machine

open Sys2Proof

/-- The format check of R3 but for stacked management tags: FCS, length 64 to 1522. -/
def formatOk (frame : List Byte) : Bool :=
  fcsOk frame && (64 ≤ frame.length && frame.length ≤ 1522)

/-- The frame kinds (01 section 1.7) with what each carries to the block that receives it. -/
inductive FrameKind where
  | command (slot : Fin 16) (i : Fin 8) (p : Profile)
  | unguarded (slot : Fin 16)
  | broadcastCommand
  | response (slot : Fin 16) (p : Profile)
  | transit
  deriving DecidableEq, Repr

/-- A used slot's profile recognises a group-addressed frame as a class other than READ (R15): its recogniser accepts the
frame, which holds no complete Code field or a code of another class. -/
def guardedBroadcast (b : Bank) (l : Layers) (slot : Fin 16) : Bool :=
  match profileOfSlot b slot with
  | none => false
  | some (i, p) =>
    matchesProfile p true l &&
      match readCode p (protocolPayload p l).bytes with
      | none => true
      | some code => classOfCode b i code != .read

/-- The kind of a downstream frame (R15). -/
def classifyDownstream (b : Bank) (l : Layers) : FrameKind :=
  match slotOfAddress b l.destination with
  | some slot =>
    match profileOfSlot b slot with
    | some (i, p) => if matchesProfile p true l || isFragmentFor p l then .command slot i p else .unguarded slot
    | none => .unguarded slot
  | none =>
    if isGroup l.destination && (usedSlots b).any (guardedBroadcast b l) then .broadcastCommand else .transit

/-- The kind of an upstream frame (R16). -/
def classifyUpstream (b : Bank) (l : Layers) : FrameKind :=
  match slotOfAddress b l.source with
  | some slot =>
    match profileOfSlot b slot with
    | some (_, p) => if matchesProfile p false l then .response slot p else .unguarded slot
    | none => .unguarded slot
  | none => .transit

/-- What follows the classification of a downstream frame (R18). -/
def handleDownstream (s : State) (l : Layers) (frame : List Byte) : State :=
  match classifyDownstream s.activeBank l with
  | .command slot i p => decideCommand s slot i p l frame
  | .unguarded slot => decideUnguarded s slot l.source frame
  | .broadcastCommand => decideBroadcast s l.source frame
  | .response _ _ => forwardFrame s .cell frame
  | .transit => forwardFrame s .cell frame

/-- The Transaction Tracker's part in an upstream frame (R18): a RESPONSE is matched. -/
def handleResponse (l : Layers) (s : State) : State :=
  match classifyUpstream s.activeBank l with
  | .response slot p => matchResponse s slot p (protocolPayload p l).bytes
  | .command _ _ _ => s
  | .unguarded _ => s
  | .broadcastCommand => s
  | .transit => s

/-- The placement of an upstream frame (R5, R18): in the NET forward queue, or a Link Drop while the NET port is DOWN. -/
def placeUpstream (s : State) (frame : List Byte) : State :=
  if s.net.up then forwardFrame s .net frame else countLinkDrop s .net

/-- A frame that passed R3 and is not MGMT (R5 to R18): the room check, then its kind. NOTICE frames for records of a
response's match are offered before the response is placed (log entry 18). -/
def handleTraffic (s : State) (p : Port) (l : Layers) (frame : List Byte) : State :=
  if 32 ≤ (s.port (otherPort p)).forwardQueue.length then countQueueFull s p
  else
    match p with
    | .net =>
      if !s.cell.up then countLinkDrop s .cell else noticing (fun s => handleDownstream s l frame) s
    | .cell => placeUpstream (noticing (handleResponse l) s) frame

end Sys2Proof.Machine
end

