-- ==== Sys2Proof/Machine/Checks.lean ====
section
/-! DEFINITION. The consistency checks COMMIT and the Start-up Loader make on a bank (08 R135 to R139). -/

namespace Sys2Proof.Machine

open Sys2Proof

/-- A chain link is END or an index 0 to 255. -/
def isLink (h : BitVec 16) : Bool := h == chainEnd || h.toNat < 256

/-- The walk of R136 from a link, of at most `n` rules: the rules it passes, and whether it cycles. It stops at END, at an
unused rule and at a link that is neither END nor an index; it cycles when `n` used rules are passed and another
follows. -/
def checkWalk (b : Bank) : Nat → BitVec 16 → List (Fin 256) × Bool
  | 0, h => ([], (ruleIndex h).isSome)
  | n + 1, h =>
    match ruleIndex h with
    | none => ([], false)
    | some i =>
      if !isUsed b.rules[i].used then ([i], false)
      else
        let rest := checkWalk b n b.rules[i].next
        (i :: rest.1, rest.2)

/-- The walk from a head cycles (R136). -/
def chainCycles (b : Bank) (h : BitVec 16) : Bool := (checkWalk b 256 h).2

/-- The heads walks start from: the Common Head, and the Chain Head of each used slot (R139). -/
def chainHeads (b : Bank) : List (BitVec 16) :=
  b.commonHead :: (usedSlots b).map (fun i => b.controllers[i].chainHead)

/-- Every rule some walk passes (R136). -/
def reachedRules (b : Bank) : List (Fin 256) := (chainHeads b).flatMap (fun h => (checkWalk b 256 h).1)

/-- The Bank Header fails (R136). -/
def headerFails (b : Bank) : Bool := !isLink b.commonHead || chainCycles b b.commonHead

/-- An offset plus a width exceeds 1500 (R19). -/
def offsetFails (off : BitVec 16) (w : Nat) : Bool := 1500 < off.toNat + w

/-- A field of width 0 is not checked (R19). -/
def widthOffsetFails (off : BitVec 16) (w : Byte) : Bool := w != 0 && offsetFails off w.toNat

/-- A width of a tag or object field is not 0, 2 or 4 (R19). -/
def widthFails (w : Byte) : Bool := w != 0 && w != 2 && w != 4

/-- A used Profile fails (R137). -/
def profileFails (p : Profile) : Bool :=
  (1 < p.kind.toNat || 1 < p.byteOrder.toNat || (p.codeWidth != 1 && p.codeWidth != 2) || widthFails p.tagWidth ||
    widthFails p.objectWidth || 1 < p.segmentFields.toNat || 1 < p.firstSegment.toNat || 6 < p.unlistedClass.toNat) ||
  (if p.kind = 0 then p.matchValue.toNat < 0x0600 else p.matchValue == 0) ||
  (widthOffsetFails p.codeOffset p.codeWidth || widthOffsetFails p.tagOffset p.tagWidth ||
    widthOffsetFails p.objectOffset p.objectWidth || offsetFails p.valueOffset 1 || offsetFails p.statusOffset 1 ||
    offsetFails p.responseValueOffset 1 ||
    (hasSegments p && (offsetFails p.segmentNumberOffset 2 || offsetFails p.segmentLengthOffset 2 ||
      offsetFails p.segmentPayloadOffset 0)))

/-- A Code Map entry fails (R137): of a used Profile, used, with a Class that is none of the seven, or a Code that a used
entry of the same Profile with a lower number holds. -/
def codeMapFails (b : Bank) (k : Fin 256) : Bool :=
  have : k.val / 32 < 8 := by omega
  let e := b.codeMap[k]
  isUsed b.profiles[k.val / 32].used && isUsed e.used &&
    ((classOfByte e.cls).isNone || (List.finRange 256).any (fun j => decide (j.val < k.val) &&
      decide (j.val / 32 = k.val / 32) && isUsed b.codeMap[j].used && b.codeMap[j].code == e.code))

/-- The Profile a slot names is missing or unused, or lacks the tag or segment fields that Image Check ON requires
(R136). -/
def slotProfileFails (b : Bank) (c : Controller) : Bool :=
  if h : c.profile.toNat < 8 then
    let p := b.profiles[c.profile.toNat]
    !isUsed p.used || (imageCheckOn c && (p.tagWidth == 0 || !hasSegments p))
  else true

/-- A Controller slot fails (R136). -/
def controllerFails (station : MacAddress) (b : Bank) (i : Fin 16) : Bool :=
  let c := b.controllers[i]
  isUsed c.used &&
    ((isGroup c.address || c.address == 0 || c.address == station ||
        allSlots.any (fun j => decide (j.val < i.val) && slotUsed b j && b.controllers[j].address == c.address)) ||
      slotProfileFails b c || (!isLink c.chainHead || chainCycles b c.chainHead) ||
      (1 < c.unknownTraffic.toNat || 1 < c.imageCheck.toNat) ||
      (c.scoreWindow != 1 && c.scoreWindow != 2 && c.scoreWindow != 4 && c.scoreWindow != 8))

/-- A Source entry fails (R138). -/
def sourceFails (b : Bank) (i : Fin 32) : Bool :=
  isUsed b.sources[i].used && (List.finRange 32).any (fun j => decide (j.val < i.val) && isUsed b.sources[j].used &&
    b.sources[j].address == b.sources[i].address)

/-- The BOUND conditions a rule fails (R139). -/
def boundFails (r : Rule) : Bool :=
  r.classSet != 2 ||
    (match valueTypeOfByte r.valueType with
      | none => true
      | some t =>
        let low := boundNumber t r.low
        let high := boundNumber t r.high
        decide (low < typeMin t) || decide (typeMax t < low) || decide (high < typeMin t) || decide (typeMax t < high) ||
          decide (high < low) || decide (typeSpan t < r.step.toNat)) ||
    1 < r.outOfBand.toNat || 1 < r.freeInWindow.toNat

/-- A reached rule fails (R139). -/
def ruleFails (r : Rule) : Bool :=
  !isUsed r.used || !isLink r.next || (r.classSet == 0 || r.classSet.getLsbD 7) ||
    r.objectLast.toNat < r.objectFirst.toNat || 3 < r.action.toNat || (r.action == 3 && boundFails r)

/-- A character of a label, counted from its last, lies outside 20H to 7EH (R138). -/
def labelCharFails (label : BitVec 64) (k : Nat) : Bool :=
  let c := label.toNat / 256 ^ k % 256
  c < 0x20 || 0x7E < c

/-- An Approved Image entry fails (R138). -/
def imageFails (e : ApprovedImage) : Bool :=
  isUsed e.used && (e.length == 0 || (List.range 8).any (labelCharFails e.label))

/-- The index of the first failing entry of one table (R135). -/
def firstFailureIn (station : MacAddress) (b : Bank) : TableId → Option Nat
  | .bankHeader => if headerFails b then some 0 else none
  | .profiles =>
    ((List.finRange 8).find? (fun i => isUsed b.profiles[i].used && profileFails b.profiles[i])).map Fin.val
  | .codeMap => ((List.finRange 256).find? (codeMapFails b)).map Fin.val
  | .controllers => (allSlots.find? (controllerFails station b)).map Fin.val
  | .sources => ((List.finRange 32).find? (sourceFails b)).map Fin.val
  | .rules =>
    let reached := reachedRules b
    ((List.finRange 256).find? (fun i => reached.contains i && ruleFails b.rules[i])).map Fin.val
  | .images => ((List.finRange 32).find? (fun i => imageFails b.images[i])).map Fin.val

/-- The first failing entry of a bank, tables in table id order and entries in ascending index (R135); none when the bank
passes. -/
def firstFailure (station : MacAddress) (b : Bank) : Option (TableId × Nat) :=
  allTables.findSome? (fun t => (firstFailureIn station b t).map (fun i => (t, i)))

end Sys2Proof.Machine
end

