-- ==== Sys2Proof/Machine/Memory.lean ====
section
/-! DEFINITION. The SPI serial memory (10, 11 section 11.6): cells in one canonical form. -/

namespace Sys2Proof.Machine

open Sys2Proof

/-- What an address that is not listed reads as: FFH, as a serial memory that does not answer reads (R165). -/
def memoryBlank : Byte := 0xFF

/-- The canonical form: addresses strictly rising, and no cell equal to what an unlisted address reads as. -/
def memoryWf (m : List (Nat × Byte)) : Bool :=
  decide (m.Pairwise (fun a b => a.1 < b.1)) && m.all (fun c => c.2 != memoryBlank)

/-- The byte at an address. -/
def memoryRead (m : List (Nat × Byte)) (a : Nat) : Byte :=
  match m with
  | [] => memoryBlank
  | c :: rest => if c.1 = a then c.2 else if a < c.1 then memoryBlank else memoryRead rest a

/-- The `n` bytes from address `a` on, in one pass over the cells. -/
def memoryRun : Nat → Nat → List (Nat × Byte) → List Byte
  | 0, _, _ => []
  | n + 1, a, m =>
    let rest := m.dropWhile (fun c => decide (c.1 < a))
    match rest with
    | [] => memoryBlank :: memoryRun n (a + 1) []
    | c :: rest' =>
      if c.1 = a then c.2 :: memoryRun n (a + 1) rest' else memoryBlank :: memoryRun n (a + 1) rest

/-- The cells a run of bytes from address `a` on makes; a blank byte makes none. -/
def cellsOf (a : Nat) : List Byte → List (Nat × Byte)
  | [] => []
  | b :: rest => if b = memoryBlank then cellsOf (a + 1) rest else (a, b) :: cellsOf (a + 1) rest

/-- A run of bytes written from address `a` on. -/
def memoryWrite (m : List (Nat × Byte)) (a : Nat) (l : List Byte) : List (Nat × Byte) :=
  m.filter (fun c => decide (c.1 < a)) ++ (cellsOf a l ++ m.filter (fun c => decide (a + l.length ≤ c.1)))

end Sys2Proof.Machine
end

