-- ==== Sys2Proof/Machine/Loader.lean ====
section
/-! DEFINITION. The Start-up Loader: the identity record, the start-up image and its checks, the end of STARTING, and a
SAVE's writes and its ends (10 R165 to R171, 11 section 11.6, R175). -/

namespace Sys2Proof.Machine

open Sys2Proof

/-! ### Layout of the serial memory (11 section 11.6) -/

/-- The address of the image header. -/
def headerAddress : Nat := 0x1000

/-- The address of the body. -/
def bodyAddress : Nat := 0x1010

/-- The length of the body of version 1. -/
def bodyLength : Nat := 11732

/-- The image marker. -/
def imageMarker : BitVec 32 := 0x4C44A416

/-- The Save Mark COMPLETE. -/
def markComplete : Byte := 0x5A

/-- The Save Mark that SAVE writes for INCOMPLETE. -/
def markIncomplete : Byte := 0x00

/-- The fallback station address (R165). -/
def fallbackStation : MacAddress := 0x02006C000416#48

/-! ### Settings and body -/

/-- Four address places, 00H beyond the addresses held (R175). -/
def addressPlaces (l : List MacAddress) : List Byte :=
  (l.take 4).flatMap (fun a => beBytes 6 a.toNat) ++ zeros (6 * (4 - l.length))

/-- The first four bytes SET SETTINGS and the settings block share: source count, Cell Management, start mode,
lock-at-start. -/
def settingsHead (t : Settings) : List Byte :=
  [BitVec.ofNat 8 t.sources.length, boolByte t.cellManagement, if t.startEnforce then 2 else 1, boolByte t.lockAtStart]

/-- The VLAN present byte and the tag control of a notice destination. -/
def noticeVlanBytes (v : Option (BitVec 16)) : List Byte :=
  match v with
  | some c => 1 :: beBytes 2 c.toNat
  | none => [0, 0, 0]

/-- The 48-byte settings block (11 section 11.6). -/
def settingsBytes (t : Settings) : List Byte :=
  settingsHead t ++ addressPlaces t.sources ++ beBytes 8 t.token.toNat ++
    (match t.notice with
      | some n => 1 :: (noticeVlanBytes n.vlan ++ beBytes 6 n.address.toNat)
      | none => zeros 10) ++ zeros 2

/-- The body of an image (11 section 11.6). -/
def bodyBytes (t : Settings) (b : Bank) : List Byte := settingsBytes t ++ bankBytes b

/-- The 16-byte header of an image over a body (11 section 11.6). -/
def headerBytes (mark : Byte) (body : List Byte) : List Byte :=
  beBytes 4 imageMarker.toNat ++ [1, mark, 0, 0] ++ beBytes 4 bodyLength ++ beBytes 4 (crc32 body).toNat

/-- The addresses of a run of six-byte places. -/
def addressesOf : Nat → List Byte → List MacAddress
  | 0, _ => []
  | n + 1, l => be48At l 0 :: addressesOf n (l.drop 6)

/-- The settings the first 28 bytes and a token carry, or none when a condition of R157 fails: a count above 4, a group
or zero address, two equal addresses, a flag neither OFF nor ON, a start mode neither PASSIVE nor ENFORCE. Addresses
beyond the count are not read (R173, R175). -/
def settingsOf (l : List Byte) (token : BitVec 64) (notice : Option NoticeDestination) : Option Settings :=
  let count := (byteAt l 0).toNat
  let addresses := addressesOf count (l.drop 4)
  if count ≤ 4 ∧ addresses.all (fun a => !isGroup a && a != 0) ∧ addresses.Nodup ∧ (byteAt l 1).toNat ≤ 1 ∧
      (byteAt l 3).toNat ≤ 1 ∧ (byteAt l 2 = 1 ∨ byteAt l 2 = 2) then
    some
      { sources := addresses
        cellManagement := byteAt l 1 == 1
        notice := notice
        token := token
        startEnforce := byteAt l 2 == 2
        lockAtStart := byteAt l 3 == 1 }
  else none

/-- The notice destination of a settings block, or none when its bytes fail the settings check (R166, R175): a notice set
byte, or with notice set 01H a VLAN present byte, other than 00H or 01H. -/
def noticeOfBlock (l : List Byte) : Option (Option NoticeDestination) :=
  if byteAt l 36 = 0 then some none
  else if byteAt l 36 = 1 ∧ (byteAt l 37).toNat ≤ 1 then
    some (some ⟨be48At l 40, if byteAt l 37 = 1 then some (be16At l 38) else none⟩)
  else none

/-- The working settings of a settings block when it passes the check of R166. -/
def settingsOfBlock (l : List Byte) : Option Settings :=
  match noticeOfBlock l with
  | none => none
  | some n => settingsOf l (be64At l 28) n

/-! ### The start -/

/-- The station address of the identity record when its check passes and it is unicast and non-zero, else the fallback
(R165). -/
def stationOf (identity : List Byte) : MacAddress :=
  let a := be48At identity 0
  if be32At identity 6 = crc32 (slice identity 0 6) ∧ isGroup a = false ∧ a ≠ 0 then a else fallbackStation

/-- The settings and bank of a body that passes the content check of R166. -/
def checkedBody (station : MacAddress) (body : List Byte) : Option (Settings × Bank) :=
  match settingsOfBlock (body.take 48) with
  | none => none
  | some t =>
    let b := bankOfBytes (body.drop 48)
    if firstFailure station b = none then some (t, b) else none

/-- The classification of an image from its header and body, with the contents of a good one (R165): the Marker, then the
Format Version, the Save Mark, the Length, the CRC of the body and the content check. -/
def classifyImage (station : MacAddress) (header body : List Byte) : StartOutcome × Option (Settings × Bank) :=
  if be32At header 0 ≠ imageMarker then (.noImage, none)
  else if byteAt header 4 ≠ 1 ∨ byteAt header 5 ≠ markComplete ∨ (be32At header 8).toNat ≠ bodyLength then
    (.badImage, none)
  else if crc32 body ≠ be32At header 12 then (.badImage, none)
  else
    match checkedBody station body with
    | some c => (.goodImage, some c)
    | none => (.badImage, none)

/-- The guards at the end of STARTING: each used slot of bank A begins NORMAL (R92, R168). -/
def startGuards (b : Bank) : Vector (Option SlotGuard) 16 :=
  allSlots.foldl (fun g i => if slotUsed b i then g.set i (some freshGuard) else g) (Vector.replicate 16 none)

/-- The state installed by the Loader (R165 to R167), the device mode entered (R168) and the interval timer started
(R101). Bank B is unused and the marker is A. No slot is FROZEN, so ALERT is deasserted (R106). -/
def installStart (s : State) (station : MacAddress) (outcome : StartOutcome) (t : Settings) (b : Bank) : State :=
  { s with
    alert := false
    station := station
    startOutcome := some outcome
    settings := t
    bankA := b
    bankB := {}
    active := .a
    lock := t.lockAtStart
    mode := if t.startEnforce then .enforce else .passive
    guards := startGuards b
    intervalNext := some (s.clock + 1000) }

/-- A port whose link indication is high goes to UP with a LINK_CHANGED record (R1, R168). -/
def portUpAtStart (p : Port) (high : Bool) (s : State) : State :=
  if high then
    (s.setPort p { s.port p with up := true }).record
      { time := s.clock, kind := .linkChanged, extra := some (linkExtra p true) }
  else s

/-- The end of STARTING in the order of R168, with the NOTICE of each record at its own instant: STARTED, the ports that
go to UP, MODE_CHANGED. -/
def finishStart (s : State) (outcome : StartOutcome) : State :=
  let s1 := noticing
    (fun s => s.record { time := s.clock, kind := .started, reason := some (outcomeReason outcome) }) s
  let s2 := noticing (portUpAtStart .net s1.netLink) s1
  let s3 := noticing (portUpAtStart .cell s2.cellLink) s2
  noticing (fun s => s.record { time := s.clock, kind := .modeChanged, extra := some (modeCode s.mode).toNat }) s3

/-- What the Loader reads: `n` bytes from an address, all FFH from a memory that does not answer (R165). -/
def loaderRead (s : State) (answers : Bool) (n a : Nat) : List Byte :=
  if answers then memoryRun n a s.memory else List.replicate n memoryBlank

/-- STARTING ends (R165 to R168). -/
def endStarting (s : State) (answers : Bool) : State :=
  let station := stationOf (loaderRead s answers 10 0)
  let c := classifyImage station (loaderRead s answers 16 headerAddress) (loaderRead s answers bodyLength bodyAddress)
  let content := c.2.getD ({}, {})
  finishStart (installStart s station c.1 content.1 content.2) c.1

/-! ### SAVE -/

/-- The instants a SAVE may take (R170). -/
def saveLimitMs : Nat := 4000

/-- A SAVE accepted (R169): the snapshot taken, the save state RUNNING, and the header written with Save Mark INCOMPLETE,
the first writes of R170 (log entry 13). -/
def beginSave (s : State) (requester : MacAddress) : State :=
  let run : SaveRun :=
    { settings := s.settings, bank := s.activeBank, bankId := s.active, requester := requester,
      limit := s.clock + saveLimitMs }
  { s with
    save := some run
    memory := memoryWrite s.memory headerAddress (headerBytes markIncomplete (bodyBytes run.settings run.bank)) }

/-- The SAVE_DONE or SAVE_FAILED record (R170). -/
def saveRecord (s : State) (kind : EventKind) (run : SaveRun) : EventRecord :=
  { time := s.clock, kind := kind, source := some run.requester, extra := some (bankCode run.bankId) }

/-- A byte written at an address, unless the memory failed there (log entry 15). -/
def misreadAt (misread : List (Nat × Byte)) (a : Nat) (b : Byte) : Byte :=
  match misread.find? (fun c => c.1 == a) with
  | some c => c.2
  | none => b

/-- A run as it reads back from address `a` on (log entry 15). -/
def readBack (misread : List (Nat × Byte)) (a : Nat) : List Byte → List Byte
  | [] => []
  | b :: rest => misreadAt misread a b :: readBack misread (a + 1) rest

/-- The read-back matches what was written (R170). -/
def readBackMatches (misread : List (Nat × Byte)) (a : Nat) : List Byte → Bool
  | [] => true
  | b :: rest => misreadAt misread a b == b && readBackMatches misread (a + 1) rest

/-- The writes and read-back of a SAVE complete (R170): with a matching read-back the Save Mark is set to COMPLETE and the
SAVE ends with SAVE_DONE; otherwise the Save Mark is left INCOMPLETE and it ends with SAVE_FAILED. The Marker stands in the
memory after a failed SAVE, so that the next start is a BAD_IMAGE start as R170 says (log entry 15). -/
def endSave (s : State) (misread : List (Nat × Byte)) : State :=
  match s.save with
  | none => s
  | some run =>
    let body := bodyBytes run.settings run.bank
    let image := headerBytes markIncomplete body ++ body
    if misread = [] ∨ readBackMatches misread headerAddress image then
      { s.record (saveRecord s .saveDone run) with
        save := none
        lastSave := .done
        memory := memoryWrite s.memory headerAddress (headerBytes markComplete body ++ body) }
    else
      { s.record (saveRecord s .saveFailed run) with
        save := none
        lastSave := .failed
        memory := memoryWrite
          (memoryWrite
            (memoryWrite s.memory headerAddress (readBack misread headerAddress image))
            headerAddress (beBytes 4 imageMarker.toNat))
          (headerAddress + 5) [markIncomplete] }

/-- The memory when a SAVE ends unfinished: the header with Save Mark INCOMPLETE and a free number of the body's bytes
(log entry 14). -/
def unfinishedMemory (s : State) (run : SaveRun) : List (Nat × Byte) :=
  memoryWrite s.memory bodyAddress
    ((bodyBytes run.settings run.bank).take (Config.saveProgress s.freeValues))

/-- A SAVE not complete at its limit (R170): SAVE_FAILED, the Save Mark left as it stands. -/
def saveExpire (s : State) : State :=
  match s.save with
  | none => s
  | some run =>
    if run.limit ≤ s.clock then
      { s.record (saveRecord s .saveFailed run) with
        save := none
        lastSave := .failed
        memory := unfinishedMemory s run
        freeValues := s.freeValues + 1 }
    else s

/-- A SAVE abandoned by a reset (R171): no record, the Save Mark INCOMPLETE. -/
def abandonSave (s : State) : State :=
  match s.save with
  | none => s
  | some run => { s with save := none, memory := unfinishedMemory s run, freeValues := s.freeValues + 1 }

end Sys2Proof.Machine
end

