-- ==== Sys2Proof/WellFormed.lean ====
section
/-! DEFINITION. Which commands are well formed: those whose operands describe something that can reach the part.
`exec` does not read these checks: it answers for every command. -/

namespace Sys2Proof

/-- The whole length, FCS included, of the frame that carries a request: two addresses, the VLAN tag if there is
one, the type, the 14-byte header, the bytes after it and the FCS (R10, R145). -/
def Request.frameLength (r : Request) : Nat :=
  12 + (if r.vlanTag.isSome then 4 else 0) + 2 + 14 + r.payload.length + 4

/-- A VLAN tag begins with type 8100H or 88A8H (R10). -/
def Request.tagOk (r : Request) : Bool :=
  match r.vlanTag with
  | none => true
  | some t => t.extractLsb' 16 16 == 0x8100#16 || t.extractLsb' 16 16 == 0x88A8#16

/-- The frame of a request passes the length test of R3; a frame that does not is a FRAME_ARRIVAL. -/
def Request.lengthOk (r : Request) : Bool :=
  64 ≤ r.frameLength && r.frameLength ≤ 1522

/-- Both checks on a request's frame. -/
def Request.wellFormed (r : Request) : Bool := r.tagOk && r.lengthOk

/-- The cells a SAVE writes: the 16-byte header at 001000H and the body of 11732 bytes behind it (11 section 11.6).
A read-back can differ in these alone, and in each of them once. -/
def misreadOk (cells : List (Nat × Byte)) : Bool :=
  cells.all (fun c => 0x1000 ≤ c.1 && c.1 < 0x1010 + 11732) && decide (cells.map (·.1)).Nodup

/-- The well-formed commands. -/
def Instr.wellFormed : Instr → Bool
  | .saveEnd _ misread => misreadOk misread
  | .identify _ r => r.wellFormed
  | .readStatus _ r => r.wellFormed
  | .readCounters _ r => r.wellFormed
  | .tableRead _ r => r.wellFormed
  | .tableWrite _ r => r.wellFormed
  | .bankCopy _ r => r.wellFormed
  | .commit _ r => r.wellFormed
  | .lockPolicy _ r => r.wellFormed
  | .setMode _ r => r.wellFormed
  | .openWindow _ r => r.wellFormed
  | .closeWindow _ r => r.wellFormed
  | .thaw _ r => r.wellFormed
  | .fetchEvents _ r => r.wellFormed
  | .readShadow _ r => r.wellFormed
  | .forgetShadow _ r => r.wellFormed
  | .readLoads _ r => r.wellFormed
  | .setNoticeDestination _ r => r.wellFormed
  | .setSettings _ r => r.wellFormed
  | .save _ r => r.wellFormed
  | .restart _ r => r.wellFormed
  | .resetNAssert _ => true
  | .resetNRelease _ => true
  | .startingEnd _ _ => true
  | .linkChanged _ _ _ => true
  | .frameArrival _ _ _ => true
  | .transmissionComplete _ _ => true
  | .responseTimeout _ _ _ => true
  | .windowExpiry _ _ => true
  | .chgPermitPinChange _ _ => true
  | .permitFilterExpiry _ => true
  | .intervalExpiry _ => true
  | .idleExpiry _ _ => true
  | .lockoutEnd _ => true
  | .saveTimeout _ => true

end Sys2Proof
end

