-- ==== Sys2Proof/Machine/Management.lean ====
section
/-! DEFINITION. The Management Unit: what a request does, its answer, its acceptance and its token test (09), and the
twenty requests, each one definition (R91, R96, R131 to R158, R161, R169, R172). -/

namespace Sys2Proof.Machine

open Sys2Proof

/-- The answer to a request: the state its execution leaves, the status, the response payload, and whether it is the
response of a RESTART that makes one pending. -/
structure Answer where
  state : State
  status : Status
  payload : List Byte := []
  restarts : Bool := false

/-- A status other than OK: an empty payload (R147). -/
def refuse (s : State) (status : Status) : Answer := { state := s, status := status }

/-- Status OK with a payload. -/
def reply (s : State) (payload : List Byte) : Answer := { state := s, status := .ok, payload := payload }

/-! ### Tests (R148, R149) -/

/-- Step 5 of R148: the Payload Length is the size the request has; the rest goes on with the payload. -/
def withLength (r : Request) (len : Nat) (s : State) (k : List Byte → Answer) : Answer :=
  if r.payloadLength.toNat = len then k (r.payload.take len) else refuse s .badLength

/-- The token test (R149): its status, if it fails, and the failure count and lockout it leaves (R150). -/
def tokenTest (r : Request) (s : State) : State × Option Status :=
  if s.lockoutEnd.isSome then (s, some .lockedOut)
  else if r.token = s.settings.token then ({ s with tokenFailures := 0 }, none)
  else if s.tokenFailures = 2 then
    ({ s with tokenFailures := 0, lockoutEnd := some (s.clock + 60000) }.record
      { time := s.clock, kind := .tokenLockout, source := some r.source, extra := some 60 }, some .notAuthorized)
  else ({ s with tokenFailures := s.tokenFailures + 1 }, some .notAuthorized)

/-- Step 4 of R148 for a request that needs the token. -/
def withToken (r : Request) (s : State) (k : State → Answer) : Answer :=
  match tokenTest r s with
  | (s1, none) => k s1
  | (s1, some status) => refuse s1 status

/-! ### Requests on the part as a whole -/

/-- IDENTIFY (R152). -/
def doIdentify (r : Request) (s : State) : Answer :=
  withLength r 0 s fun _ =>
    reply s (beBytes 2 0x0416 ++ [1, outcomeCode s.startOutcome] ++ beBytes 6 s.station.toNat ++ beBytes 6 s.clock)

/-- The time left to a window's deadline in whole seconds, rounded up; 0 for no window (R109). -/
def windowLeft (s : State) : GuardState → Nat
  | .window d => secondsUp (d - s.clock)
  | .normal => 0
  | .frozen => 0

/-- The eight bytes of a slot in READ STATUS (11 section 11.3); Used is 00H for every slot that is not used (log
entry 25). -/
def slotStatusBytes (s : State) (i : Fin 16) : List Byte :=
  if slotUsed s.activeBank i then
    match s.guards[i] with
    | some g =>
      [1, guardCode g.state, g.intervalCount, BitVec.ofNat 8 g.lastAverage] ++
        beBytes 2 (windowLeft s g.state) ++ zeros 2
    | none => 1 :: zeros 7
  else zeros 8

/-- The flags byte of READ STATUS (11 section 11.3). -/
def statusFlags (s : State) : Nat :=
  (if s.lock then 1 else 0) + (if s.net.up then 2 else 0) + (if s.cell.up then 4 else 0) +
  (if s.permit then 8 else 0) + (if s.alert then 16 else 0) + (if s.overflow then 32 else 0) +
  (if s.lockoutEnd.isSome then 64 else 0) + (if s.settings.cellManagement then 128 else 0)

/-- How many Download Record slots are in use (R154). -/
def loadsInUse (s : State) : Nat := (allLoads.filter (fun d => s.loads[d].isSome)).length

/-- The time left of the lockout in whole seconds, rounded up; 0 when there is none (R154). -/
def lockoutLeft (s : State) : Nat :=
  match s.lockoutEnd with
  | some t => secondsUp (t - s.clock)
  | none => 0

/-- The READ STATUS payload (R154, 11 section 11.3). -/
def statusBytes (s : State) : List Byte :=
  beBytes 6 s.clock ++
  [modeCode s.mode, outcomeCode s.startOutcome, BitVec.ofNat 8 (bankCode s.active), BitVec.ofNat 8 (statusFlags s),
    BitVec.ofNat 8 s.events.length, BitVec.ofNat 8 (loadsInUse s)] ++
  beBytes 2 s.outstanding.length ++ beBytes 2 s.shadow.length ++
  [BitVec.ofNat 8 s.tokenFailures.val, boolByte s.save.isSome, saveResultCode s.lastSave,
    BitVec.ofNat 8 s.settings.sources.length, boolByte s.settings.notice.isSome, 0] ++
  beBytes 2 (lockoutLeft s) ++ allSlots.flatMap (slotStatusBytes s)

/-- READ STATUS (R154). -/
def doReadStatus (r : Request) (s : State) : Answer :=
  withLength r 0 s fun _ => reply s (statusBytes s)

/-- The six counters of a port in the order of R9. -/
def portCounterBytes (p : PortState) : List Byte :=
  [p.received, p.forwarded, p.queueFullDrops, p.formatDrops, p.guardDrops, p.linkDrops].flatMap
    (fun c => beBytes 4 c.toNat)

/-- The four decision counters of a slot in the order of R54. -/
def decisionCounterBytes (k : DecisionCounters) : List Byte :=
  [k.permitted, k.denied, k.clamped, k.refused].flatMap (fun c => beBytes 4 c.toNat)

/-- The management counters in the order of R151. -/
def managementCounterBytes (k : ManagementCounters) : List Byte :=
  [k.notRequests, k.refused, k.replyFull, k.noticesLost].flatMap (fun c => beBytes 4 c.toNat)

/-- The READ COUNTERS payload (R155): 80 counters and the clock. -/
def counterBytes (s : State) : List Byte :=
  portCounterBytes s.net ++ portCounterBytes s.cell ++
  allSlots.flatMap (fun i => decisionCounterBytes s.decisions[i]) ++
  managementCounterBytes s.management ++ beBytes 6 s.clock

/-- A Port Unit with its six counters at 0 (R155). -/
def clearPortCounters (p : PortState) : PortState :=
  { p with received := 0, forwarded := 0, queueFullDrops := 0, formatDrops := 0, guardDrops := 0, linkDrops := 0 }

/-- Every one of the 80 counters at 0 (R155). -/
def clearCounters (s : State) : State :=
  { s with
    net := clearPortCounters s.net
    cell := clearPortCounters s.cell
    decisions := Vector.replicate 16 {}
    management := {} }

/-- READ COUNTERS (R155): KEEP 00H or CLEAR 01H. -/
def doReadCounters (r : Request) (s : State) : Answer :=
  withLength r 1 s fun l =>
    if byteAt l 0 = 0 then reply s (counterBytes s)
    else if byteAt l 0 = 1 then reply (clearCounters s) (counterBytes s)
    else refuse s .badArgument

/-! ### Policy banks (08) -/

/-- The bank a bank byte names (11); none for another code. -/
def bankOfByte (b : Byte) : Option BankId :=
  if b = 0 then some .a else if b = 1 then some .b else none

/-- TABLE READ (R132). -/
def doTableRead (r : Request) (s : State) : Answer :=
  withLength r 6 s fun l =>
    let first := (be16At l 2).toNat
    let count := (be16At l 4).toNat
    match bankOfByte (byteAt l 0), tableOfByte (byteAt l 1) with
    | some id, some t =>
      if count = 0 ∨ tableReadLimit t < count then refuse s .badArgument
      else if tableEntries t < first + count then refuse s .badIndex
      else
        reply s ([BitVec.ofNat 8 (bankCode id), boolByte (id == s.active), tableCode t, 0] ++ beBytes 2 first ++
          beBytes 2 count ++ runBytes t count first (s.bank id))
    | _, _ => refuse s .badArgument

/-- TABLE WRITE (R131), its tests in its own order. -/
def doTableWrite (r : Request) (s : State) : Answer :=
  let l := r.payload.take r.payloadLength.toNat
  let first := (be16At l 2).toNat
  let count := (be16At l 4).toNat
  if s.lock then refuse s .policyLocked
  else if l.length < 6 then refuse s .badLength
  else
    match tableOfByte (byteAt l 0) with
    | none => refuse s .badArgument
    | some t =>
      if count = 0 then refuse s .badArgument
      else if tableEntries t < first + count then refuse s .badIndex
      else if l.length ≠ 6 + count * tableEntrySize t then refuse s .badLength
      else
        reply (s.setInactiveBank (writeRun t count first (l.drop 6) s.inactiveBank))
          [BitVec.ofNat 8 (bankCode (otherBank s.active))]

/-- BANK COPY (R133). -/
def doBankCopy (r : Request) (s : State) : Answer :=
  withLength r 0 s fun _ =>
    if s.lock then refuse s .policyLocked
    else
      reply (s.setInactiveBank s.activeBank)
        [BitVec.ofNat 8 (bankCode s.active), BitVec.ofNat 8 (bankCode (otherBank s.active))]

/-- A slot is changed by a swap (R141). -/
def slotChanged (old new : Bank) (i : Fin 16) : Bool :=
  slotUsed old i != slotUsed new i ||
    (slotUsed old i && (old.controllers[i].address != new.controllers[i].address ||
      old.controllers[i].profile != new.controllers[i].profile))

/-- The slots a swap changes, in ascending order (R141). -/
def changedSlots (old new : Bank) : List (Fin 16) := allSlots.filter (slotChanged old new)

/-- The decision counters of changed slots at 0 (R55). -/
def clearDecisions (s : State) (changed : List (Fin 16)) : State :=
  { s with decisions := changed.foldl (fun (v : Vector DecisionCounters 16) (i : Fin 16) => v.set i {}) s.decisions }

/-- The swap (R140, R142): the marker, then the Window Unit, the Load Checker, the Transaction Tracker and the Rule Engine
on the changed slots, ALERT, and the COMMITTED record. -/
def swapBanks (s : State) (source : MacAddress) : State :=
  let changed := changedSlots s.activeBank s.inactiveBank
  let s0 := { s with active := otherBank s.active }
  let s1 := changed.foldl (fun s i => commitSlot (slotUsed s0.activeBank i) s i) s0
  let s2 := setAlert s1
  let s3 := abortForPolicy s2 changed
  let s4 := clearDecisions (trackerPolicy s3 changed) changed
  s4.record { time := s4.clock, kind := .committed, source := some source, extra := some (bankCode s4.active) }

/-- COMMIT (R135, R140, R143). -/
def doCommit (r : Request) (s : State) : Answer :=
  withLength r 0 s fun _ =>
    if s.lock then refuse s .policyLocked
    else
      match firstFailure s.station s.inactiveBank with
      | some (t, i) => { state := s, status := .inconsistent, payload := [tableCode t, 0] ++ beBytes 2 i }
      | none => reply (swapBanks s r.source) [BitVec.ofNat 8 (bankCode (otherBank s.active))]

/-- LOCK POLICY (R143). -/
def doLockPolicy (r : Request) (s : State) : Answer :=
  withToken r s fun s =>
    withLength r 0 s fun _ =>
      if s.lock then reply s []
      else
        reply ({ s with lock := true }.record { time := s.clock, kind := .policyLocked, source := some r.source }) []

/-- The mode a SET MODE asks for (11); none for another code. -/
def modeOfByte (b : Byte) : Option Mode :=
  if b = 1 then some .passive else if b = 2 then some .enforce else none

/-- A device mode entered by SET MODE, with its MODE_CHANGED record; nothing when it is the mode already (R156). -/
def enterMode (s : State) (m : Mode) (source : MacAddress) : State :=
  if s.mode = m then s
  else
    { s with mode := m }.record
      { time := s.clock, kind := .modeChanged, source := some source, extra := some (modeCode m).toNat }

/-- SET MODE (R156): the argument first, then the token for ENFORCE to PASSIVE. -/
def doSetMode (r : Request) (s : State) : Answer :=
  withLength r 1 s fun l =>
    match modeOfByte (byteAt l 0) with
    | none => refuse s .badArgument
    | some m =>
      if s.mode = .enforce ∧ m = .passive then
        withToken r s fun s => reply (enterMode s m r.source) [modeCode m]
      else reply (enterMode s m r.source) [modeCode m]

/-! ### Windows (06) -/

/-- The used slots of the active bank that a mask names, in ascending order (R94, R96, R105). -/
def maskedSlots (s : State) (m : BitVec 16) : List (Fin 16) := (usedSlots s.activeBank).filter (maskHas m)

/-- A slot's window opened or restarted (R95), with its WINDOW_OPENED record. -/
def openSlot (seconds : Nat) (source : MacAddress) (s : State) (i : Fin 16) : State :=
  (withGuardState s i (.window (s.clock + seconds * 1000))).record
    { time := s.clock, kind := .windowOpened, slot := some i, source := some source, extra := some seconds }

/-- OPEN WINDOW (R94, R95). -/
def doOpenWindow (r : Request) (s : State) : Answer :=
  withToken r s fun s =>
    withLength r 4 s fun l =>
      let slots := maskedSlots s (be16At l 0)
      let duration := (be16At l 2).toNat
      if duration = 0 ∨ slots = [] then refuse s .badArgument
      else if !s.permit then refuse s .noPermit
      else if slots.any (isFrozen s) then refuse s .frozen
      else
        let granted := min duration 3600
        reply (slots.foldl (openSlot granted r.source) s) (beBytes 2 granted ++ beBytes 2 (maskOf slots).toNat)

/-- CLOSE WINDOW (R96). -/
def doCloseWindow (r : Request) (s : State) : Answer :=
  withLength r 2 s fun l =>
    let slots := maskedSlots s (be16At l 0)
    if slots = [] then refuse s .badArgument
    else
      reply (closeWindows s slots .request (some r.source)) (beBytes 2 (maskOf (slots.filter (inWindow s))).toNat)

/-- THAW (R105, R106). -/
def doThaw (r : Request) (s : State) : Answer :=
  withToken r s fun s =>
    withLength r 2 s fun l =>
      let slots := maskedSlots s (be16At l 0)
      if slots = [] then refuse s .badArgument
      else
        reply (setAlert (slots.foldl (fun s i => thawSlot s i (some r.source)) s))
          (beBytes 2 (maskOf (slots.filter (isFrozen s))).toNat)

/-! ### Events, shadow and loads -/

/-- FETCH EVENTS (R161): n clamped to 24 and to the records held. -/
def doFetchEvents (r : Request) (s : State) : Answer :=
  withLength r 1 s fun l =>
    let n := min (byteAt l 0).toNat 24
    if n = 0 then refuse s .badArgument
    else
      let taken := s.events.take n
      let left := s.events.drop n
      reply { s with events := left, overflow := false }
        ([BitVec.ofNat 8 taken.length, boolByte s.overflow, BitVec.ofNat 8 left.length, 0] ++ taken.flatMap recordBytes)

/-- The origin byte of a READ SHADOW entry (11 section 11.2). -/
def originByte : Origin → Byte
  | .confirmed => 0
  | .learned => 1

/-- A READ SHADOW entry (11 section 11.2). -/
def shadowBytes (e : ShadowEntry) : List Byte :=
  beBytes 4 e.object.toNat ++ int64Bytes e.value ++ [originByte e.origin, 0] ++ beBytes 6 e.lastUpdate

/-- The slot a slot byte names: 0 to 15. -/
def slotOfByte (b : Byte) : Option (Fin 16) := if h : b.toNat < 16 then some ⟨b.toNat, h⟩ else none

/-- READ SHADOW (R91). -/
def doReadShadow (r : Request) (s : State) : Answer :=
  withLength r 6 s fun l =>
    match slotOfByte (byteAt l 0) with
    | none => refuse s .badArgument
    | some slot =>
      let entries := shadowFrom s slot (be32At l 2)
      let sent := entries.take 32
      reply s ([byteAt l 0, boolByte (32 < entries.length), BitVec.ofNat 8 sent.length, 0] ++ beBytes 6 s.clock ++
        sent.flatMap shadowBytes)

/-- FORGET SHADOW (R90): scope 00H ONE, 01H ALL. -/
def doForgetShadow (r : Request) (s : State) : Answer :=
  withToken r s fun s =>
    withLength r 6 s fun l =>
      match slotOfByte (byteAt l 0) with
      | none => refuse s .badArgument
      | some slot =>
        if byteAt l 1 = 0 then
          let kept := withoutKey s.shadow slot (be32At l 2)
          reply { s with shadow := kept } (beBytes 2 (s.shadow.length - kept.length))
        else if byteAt l 1 = 1 then
          let kept := s.shadow.filter (fun e => e.slot != slot)
          reply { s with shadow := kept } (beBytes 2 (s.shadow.length - kept.length))
        else refuse s .badArgument

/-- The presence byte of a READ LOADS record: bit 0 Last Number, bit 1 Image (11 section 11.2). -/
def loadPresence (d : Download) : Byte :=
  (if d.lastNumber.isSome then 1 else 0) +
    (match d.state with
      | .activating _ => 2
      | .loading => 0)

/-- The 44 bytes of a Download Record slot (R128, 11 section 11.2). -/
def loadBytes (b : Bank) : Option Download → List Byte
  | none => zeros 44
  | some d =>
    let image : Option (Fin 32) :=
      match d.state with
      | .activating i => some i
      | .loading => none
    [if image.isSome then 2 else 1, BitVec.ofNat 8 d.controller.val, loadPresence d, 0] ++
    beBytes 6 d.source.toNat ++ beBytes 2 d.nextExpected.toNat ++
    beBytes 2 ((d.lastNumber.map BitVec.toNat).getD 0) ++ beBytes 2 d.lastLength.toNat ++
    [BitVec.ofNat 8 d.retryAllowance.val, (image.map (fun i => BitVec.ofNat 8 i.val)).getD 0] ++
    beBytes 4 d.lastSegmentCrc.toNat ++ beBytes 4 d.runningCrc.toNat ++ beBytes 4 d.byteCount.toNat ++
    beBytes 6 d.idleDeadline ++ beBytes 8 ((image.map (fun i => b.images[i].label.toNat)).getD 0)

/-- READ LOADS (R128). -/
def doReadLoads (r : Request) (s : State) : Answer :=
  withLength r 0 s fun _ =>
    reply s (beBytes 6 s.clock ++ allLoads.flatMap (fun d => loadBytes s.activeBank s.loads[d]))

/-! ### Settings -/

/-- The ten bytes of the notice destination in force; zero bytes when there is none (R158). -/
def noticeBytes (n : Option NoticeDestination) : List Byte :=
  match n with
  | none => zeros 10
  | some n =>
    beBytes 6 n.address.toNat ++
      (match n.vlan with
        | some c => [1, 0] ++ beBytes 2 c.toNat
        | none => zeros 4)

/-- The notice destination set in the working settings. -/
def setNotice (s : State) (n : Option NoticeDestination) : State := { s with settings := { s.settings with notice := n } }

/-- SET NOTICE DESTINATION (R158, R173): a zero address clears it, the VLAN field then ignored (log entry 23). -/
def doSetNoticeDestination (r : Request) (s : State) : Answer :=
  withLength r 10 s fun l =>
    let a := be48At l 0
    if a = 0 then reply (setNotice s none) (noticeBytes none)
    else if 1 < (byteAt l 6).toNat then refuse s .badArgument
    else
      let n : NoticeDestination := ⟨a, if byteAt l 6 = 1 then some (be16At l 8) else none⟩
      reply (setNotice s (some n)) (noticeBytes (some n))

/-- SET SETTINGS (R157): every carried setting replaces the working setting; the notice destination is unchanged. -/
def doSetSettings (r : Request) (s : State) : Answer :=
  withToken r s fun s =>
    withLength r 36 s fun l =>
      match settingsOf l (be64At l 28) s.settings.notice with
      | none => refuse s .badArgument
      | some t => reply { s with settings := t } (settingsHead t ++ addressPlaces t.sources)

/-! ### SAVE and RESTART (10) -/

/-- SAVE (R169). -/
def doSave (r : Request) (s : State) : Answer :=
  withToken r s fun s =>
    withLength r 0 s fun _ =>
      if s.save.isSome ∨ s.restartPending then refuse s .busy
      else reply (beginSave s r.source) [BitVec.ofNat 8 (bankCode s.active)]

/-- RESTART (R172): the reset is taken at the report on the response of the RESTART that made it pending; a second one is
answered OK and changes nothing more. -/
def doRestart (r : Request) (s : State) : Answer :=
  withToken r s fun s =>
    withLength r 0 s fun _ =>
      if s.save.isSome then refuse s .busy
      else { state := { s with restartPending := true }, status := .ok, restarts := !s.restartPending }

/-! ### Requests at arrival -/

/-- What each request code runs (11 section 11.2); none for a code that is no request. -/
def requestOfCode (code : Byte) : Option (Request → State → Answer) :=
  match code.toNat with
  | 0x01 => some doIdentify
  | 0x02 => some doReadStatus
  | 0x03 => some doReadCounters
  | 0x04 => some doTableRead
  | 0x05 => some doTableWrite
  | 0x06 => some doBankCopy
  | 0x07 => some doCommit
  | 0x08 => some doLockPolicy
  | 0x09 => some doSetMode
  | 0x0A => some doOpenWindow
  | 0x0B => some doCloseWindow
  | 0x0C => some doThaw
  | 0x0D => some doFetchEvents
  | 0x0E => some doReadShadow
  | 0x0F => some doForgetShadow
  | 0x10 => some doReadLoads
  | 0x11 => some doSetNoticeDestination
  | 0x12 => some doSetSettings
  | 0x13 => some doSave
  | 0x14 => some doRestart
  | _ => none

/-- Tests 1 to 3 of R148, and then the request. -/
def answerRequest (run : Option (Request → State → Answer)) (r : Request) (s : State) : Answer :=
  if r.version ≠ 1 then refuse s .badRequest
  else
    match run with
    | none => refuse s .badRequest
    | some f => if r.payload.length < r.payloadLength.toNat then refuse s .badLength else f r s

/-- The response frame of an answer (R147, 11 section 11.1). DESIGN CHOICE (log entry 34): the sum of a Code of 80H or
above, which names no request, and 80H is cut to its byte. -/
def responseFrame (station : MacAddress) (code : Byte) (r : Request) (a : Answer) : List Byte :=
  buildFrame r.source station r.vlanTag
    ([1, code + 0x80] ++ beBytes 2 r.tag.toNat ++ [statusCode a.status, 0] ++ beBytes 2 a.payload.length ++ a.payload)

/-- The port and source tests of R146. -/
def requestAllowed (r : Request) (s : State) : Bool :=
  (r.port == .net || s.settings.cellManagement) && !isGroup r.source &&
    (s.settings.sources.isEmpty || s.settings.sources.contains r.source)

/-- A request executed and answered (R147): its effects, its response in the reply queue of the arrival port, and then the
NOTICE its records give rise to (log entry 17). -/
def executeRequest (code : Byte) (run : Option (Request → State → Answer)) (r : Request) (s : State) : State :=
  let a := answerRequest run r s
  noticeAfter s (offerReply a.state r.port
    ⟨if a.restarts then .restartResponse else .response, responseFrame s.station code r a⟩)

/-- A request at its arrival (R146): refused, without room, or executed. -/
def serveRequest (code : Byte) (run : Option (Request → State → Answer)) (r : Request) (s : State) : State :=
  if !requestAllowed r s then
    { s with management := { s.management with refused := satAdd s.management.refused 1 } }
  else if 4 ≤ (s.port r.port).replyQueue.length then
    { s with management := { s.management with replyFull := satAdd s.management.replyFull 1 } }
  else executeRequest code run r s

/-- The arrival of a request row's frame (R1, R3, R4): nothing at a DOWN port; counted in Received; dropped for its
length; else served. -/
def arriveRequest (code : Byte) (run : Request → State → Answer) (r : Request) (s : State) : State :=
  if !(s.port r.port).up then s
  else if !r.lengthOk then countFormatDrop (countReceived s r.port) r.port
  else serveRequest code (some run) r (countReceived s r.port)

/-! ### FRAME_ARRIVAL -/

/-- The request an MGMT frame carries, with its Code (R145): Payload Type 88B6H and a layer payload that holds the 14-byte
header. -/
def requestOfFrame (p : Port) (l : Layers) : Option (Byte × Request) :=
  if l.payloadType = some 0x88B6 ∧ 14 ≤ l.payload.length then
    some (byteAt l.payload 1,
      { port := p
        source := l.source
        vlanTag := l.vlanTag
        version := byteAt l.payload 0
        tag := be16At l.payload 2
        token := be64At l.payload 4
        payloadLength := be16At l.payload 12
        payload := l.payload.drop 14 })
  else none

/-- An MGMT frame (R4, R145): a request is served; any other is dropped and counted in Not Requests. -/
def handleManagement (s : State) (p : Port) (l : Layers) : State :=
  match requestOfFrame p l with
  | some (code, r) => serveRequest code (requestOfCode code) r s
  | none => { s with management := { s.management with notRequests := satAdd s.management.notRequests 1 } }

/-- The arrival of a frame (R1, R3 to R5): nothing at a DOWN port; counted in Received; dropped for its format; MGMT to the
Management Unit; any other to the frame path. -/
def arriveFrame (s : State) (p : Port) (frame : List Byte) : State :=
  if !(s.port p).up then s
  else
    let s1 := countReceived s p
    let l := readLayers (withoutFcs frame)
    let managed := l.destination == s.station
    if !formatOk frame || (managed && l.stacked) then countFormatDrop s1 p
    else if managed then handleManagement s1 p l
    else handleTraffic s1 p l frame

end Sys2Proof.Machine
end

