-- ==== Sys2Proof/Machine/Timers.lean ====
section
/-! DEFINITION. The clock: the deadlines the part holds, what each does when it is reached, and the passing of time
between two commands (00 section 6; log entries 1 to 4 and 11). -/

namespace Sys2Proof.Machine

open Sys2Proof

/-- The end of the token lockout (R150): taken when the clock has reached its end time. -/
def lockoutExpire (s : State) : State :=
  match s.lockoutEnd with
  | some t => if t ≤ s.clock then { s with lockoutEnd := none } else s
  | none => s

/-- What a deadline is for. -/
inductive Timer where
  | permit
  | window (slot : Fin 16)
  | interval
  | response (slot : Fin 16) (tag : BitVec 32)
  | idle (downloadSlot : Fin 4)
  | lockout
  | save
  deriving DecidableEq, Repr

/-- The expiry of a deadline, with the NOTICE its records give rise to (R162). -/
def expire (t : Timer) (s : State) : State :=
  noticing (fun s => match t with
    | .permit => permitExpire s
    | .window i => windowExpire s i
    | .interval => intervalExpire s
    | .response slot tag => responseExpire s slot tag
    | .idle d => idleExpire s d
    | .lockout => lockoutExpire s
    | .save => saveExpire s) s

/-- The window deadline of a slot in WINDOW (R93). -/
def windowDeadline (s : State) (i : Fin 16) : Option Nat :=
  match guardOf s i with
  | some (.window d) => some d
  | some .normal => none
  | some .frozen => none
  | none => none

/-- Every deadline the part holds, in the order in which equal ones are taken on the way (log entry 4). -/
def deadlines (s : State) : List (Nat × Timer) :=
  (s.permitPeriod.map (fun t => (t, Timer.permit))).toList ++
  allSlots.filterMap (fun i => (windowDeadline s i).map (fun t => (t, Timer.window i))) ++
  (s.intervalNext.map (fun t => (t, Timer.interval))).toList ++
  s.outstanding.map (fun e => (e.deadline, Timer.response e.slot e.tag)) ++
  allLoads.filterMap (fun d => s.loads[d].map (fun r => (r.idleDeadline, Timer.idle d))) ++
  (s.lockoutEnd.map (fun t => (t, Timer.lockout))).toList ++
  (s.save.map (fun r => (r.limit, Timer.save))).toList

/-- The earliest of some deadlines; the first of equal ones. -/
def earliest : List (Nat × Timer) → Option (Nat × Timer)
  | [] => none
  | t :: rest =>
    match earliest rest with
    | some u => if u.1 < t.1 then some u else some t
    | none => some t

/-- The deadlines before `limit` taken one by one, each at its own instant, in at most `n` expiries. -/
def takeDeadlines (limit : Nat) : Nat → State → State
  | 0, s => s
  | n + 1, s =>
    match earliest (deadlines s) with
    | some (t, timer) =>
      if t < limit then takeDeadlines limit n (expire timer { s with clock := max s.clock t }) else s
    | none => s

/-- Time passes (log entry 1): every deadline before the new instant is taken at its own instant, then the clock stands at
the new instant, where deadlines that fall on it wait for a command of their own or for more time. In reset nothing
runs (log entry 11). The count of expiries is enough: one of each timer that is not renewed, and one of the interval
timer in a second. -/
def State.elapse (s : State) (n : Nat) : State :=
  if s.resetN then
    let limit := s.clock + n
    { takeDeadlines limit (limit + s.outstanding.length + 24) s with clock := limit }
  else s

end Sys2Proof.Machine
end

