-- ==== Sys2Proof/Machine/Expiries.lean ====
section
/-! DEFINITION. The meanings of the expiries: RESPONSE_TIMEOUT (R80), WINDOW_EXPIRY (R93), PERMIT_FILTER_EXPIRY (R98, R99),
INTERVAL_EXPIRY (R101 to R104), IDLE_EXPIRY (R123), LOCKOUT_END (R150). Each is taken when its deadline is reached; one
that is not due, or not held, changes nothing (log entry 3). -/

namespace Sys2Proof.Machine

open Sys2Proof

/-- RESPONSE_TIMEOUT. -/
def execResponseTimeout (dt : Nat) (slot : Fin 16) (tag : BitVec 32) (s : State) :
    Host.Outcome State Fault Refusal :=
  .next (expire (.response slot tag) (s.elapse dt))

/-- WINDOW_EXPIRY. -/
def execWindowExpiry (dt : Nat) (slot : Fin 16) (s : State) : Host.Outcome State Fault Refusal :=
  .next (expire (.window slot) (s.elapse dt))

/-- PERMIT_FILTER_EXPIRY. -/
def execPermitFilterExpiry (dt : Nat) (s : State) : Host.Outcome State Fault Refusal :=
  .next (expire .permit (s.elapse dt))

/-- INTERVAL_EXPIRY. -/
def execIntervalExpiry (dt : Nat) (s : State) : Host.Outcome State Fault Refusal :=
  .next (expire .interval (s.elapse dt))

/-- IDLE_EXPIRY. -/
def execIdleExpiry (dt : Nat) (downloadSlot : Fin 4) (s : State) : Host.Outcome State Fault Refusal :=
  .next (expire (.idle downloadSlot) (s.elapse dt))

/-- LOCKOUT_END. -/
def execLockoutEnd (dt : Nat) (s : State) : Host.Outcome State Fault Refusal :=
  .next (expire .lockout (s.elapse dt))

end Sys2Proof.Machine
end

