-- ==== Sys2Proof/Machine/Lines.lean ====
section
/-! DEFINITION. The meanings of what happens at the ports and pins: LINK_CHANGED, FRAME_ARRIVAL, TRANSMISSION_COMPLETE,
CHG_PERMIT_PIN_CHANGE (01 R1 to R18, R98). -/

namespace Sys2Proof.Machine

open Sys2Proof

/-- The level of a link indication. -/
def State.link (s : State) : Port → Bool
  | .net => s.netLink
  | .cell => s.cellLink

/-- A link indication takes a level. -/
def State.setLink (s : State) (p : Port) (high : Bool) : State :=
  match p with
  | .net => { s with netLink := high }
  | .cell => { s with cellLink := high }

/-- The LINK_CHANGED record (R1). -/
def linkRecord (s : State) (p : Port) (up : Bool) : EventRecord :=
  { time := s.clock, kind := .linkChanged, extra := some (linkExtra p up) }

/-- A port goes to UP (R1): its record, and nothing emptied or started (R2). -/
def portUp (p : Port) (s : State) : State :=
  (s.setPort p { s.port p with up := true }).record (linkRecord s p true)

/-- A port goes to DOWN (R2): the Port Unit is flushed and the change recorded; on CELL DOWN the Tracker is emptied (R84);
the Load Checker aborts every record (R124). -/
def portDown (p : Port) (s : State) : State :=
  let s1 := (s.setPort p (flushPort (s.port p))).record (linkRecord s p false)
  abortAllLink (match p with
    | .net => s1
    | .cell => trackerCellDown s1)

/-- The Link State follows the indication (R1, R2), with the NOTICE its records give rise to and, for DOWN, the reports on
the reply frames discarded or abandoned (R7). -/
def linkFollows (s : State) (p : Port) (high : Bool) : State :=
  if high then noticing (portUp p) s
  else reportReplies (noticing (portDown p) s) (flushedReplies (s.port p))

/-- A link indication changes level (R1): in reset and STARTING, the pin alone (log entry 29). -/
def changeLink (s : State) (p : Port) (high : Bool) : State :=
  if high = s.link p then s
  else
    let s1 := s.setLink p high
    if s1.resetN ∧ s1.mode ≠ .starting then linkFollows s1 p high else s1

/-- LINK_CHANGED. -/
def execLinkChanged (dt : Nat) (port : Port) (high : Bool) (s : State) : Host.Outcome State Fault Refusal :=
  .next (changeLink (s.elapse dt) port high)

/-- FRAME_ARRIVAL. -/
def execFrameArrival (dt : Nat) (port : Port) (frame : List Byte) (s : State) : Host.Outcome State Fault Refusal :=
  .next (arriveFrame (s.elapse dt) port frame)

/-- The frame a transmitter is sending has left (R8): the transmitter FREE, Forwarded up by 1 for a frame of the forward
queue, the next grant, and the report on a reply frame (R7). Nothing when the transmitter is FREE. -/
def completeTransmission (s : State) (p : Port) : State :=
  let ps := s.port p
  match ps.transmitter with
  | .free => s
  | .forward _ =>
    s.setPort p (grant { ps with transmitter := .free, forwarded := satAdd ps.forwarded 1 })
  | .reply r => reportReply (s.setPort p (grant { ps with transmitter := .free })) r

/-- TRANSMISSION_COMPLETE. -/
def execTransmissionComplete (dt : Nat) (port : Port) (s : State) : Host.Outcome State Fault Refusal :=
  .next (completeTransmission (s.elapse dt) port)

/-- The CHG_PERMIT pin changes level (R98): a period whose 20 ms have passed has ended, so its expiry is taken first, and
the pin's change is then compared with the level taken. Nothing at the level the pin has (log entry 3). -/
def changePermit (s : State) (high : Bool) : State :=
  if high = s.chgPermit then s else permitPin (expire .permit s) high

/-- CHG_PERMIT_PIN_CHANGE (R98). -/
def execChgPermitPinChange (dt : Nat) (high : Bool) (s : State) : Host.Outcome State Fault Refusal :=
  .next (changePermit (s.elapse dt) high)

end Sys2Proof.Machine
end

