-- ==== Sys2Proof/Machine/Requests.lean ====
section
/-! DEFINITION. The meanings of the twenty request rows: each is the arrival of a request frame of its Code (11 section
11.2), accepted, executed and answered by the rules of 09. -/

namespace Sys2Proof.Machine

open Sys2Proof

/-- IDENTIFY, Code 01H (R152). -/
def execIdentify (dt : Nat) (request : Request) (s : State) : Host.Outcome State Fault Refusal :=
  .next (arriveRequest 0x01 doIdentify request (s.elapse dt))

/-- READ_STATUS, Code 02H (R154). -/
def execReadStatus (dt : Nat) (request : Request) (s : State) : Host.Outcome State Fault Refusal :=
  .next (arriveRequest 0x02 doReadStatus request (s.elapse dt))

/-- READ_COUNTERS, Code 03H (R155). -/
def execReadCounters (dt : Nat) (request : Request) (s : State) : Host.Outcome State Fault Refusal :=
  .next (arriveRequest 0x03 doReadCounters request (s.elapse dt))

/-- TABLE_READ, Code 04H (R132). -/
def execTableRead (dt : Nat) (request : Request) (s : State) : Host.Outcome State Fault Refusal :=
  .next (arriveRequest 0x04 doTableRead request (s.elapse dt))

/-- TABLE_WRITE, Code 05H (R131). -/
def execTableWrite (dt : Nat) (request : Request) (s : State) : Host.Outcome State Fault Refusal :=
  .next (arriveRequest 0x05 doTableWrite request (s.elapse dt))

/-- BANK_COPY, Code 06H (R133). -/
def execBankCopy (dt : Nat) (request : Request) (s : State) : Host.Outcome State Fault Refusal :=
  .next (arriveRequest 0x06 doBankCopy request (s.elapse dt))

/-- COMMIT, Code 07H (R135 to R142). -/
def execCommit (dt : Nat) (request : Request) (s : State) : Host.Outcome State Fault Refusal :=
  .next (arriveRequest 0x07 doCommit request (s.elapse dt))

/-- LOCK_POLICY, Code 08H (R143). -/
def execLockPolicy (dt : Nat) (request : Request) (s : State) : Host.Outcome State Fault Refusal :=
  .next (arriveRequest 0x08 doLockPolicy request (s.elapse dt))

/-- SET_MODE, Code 09H (R156). -/
def execSetMode (dt : Nat) (request : Request) (s : State) : Host.Outcome State Fault Refusal :=
  .next (arriveRequest 0x09 doSetMode request (s.elapse dt))

/-- OPEN_WINDOW, Code 0AH (R94, R95). -/
def execOpenWindow (dt : Nat) (request : Request) (s : State) : Host.Outcome State Fault Refusal :=
  .next (arriveRequest 0x0A doOpenWindow request (s.elapse dt))

/-- CLOSE_WINDOW, Code 0BH (R96). -/
def execCloseWindow (dt : Nat) (request : Request) (s : State) : Host.Outcome State Fault Refusal :=
  .next (arriveRequest 0x0B doCloseWindow request (s.elapse dt))

/-- THAW, Code 0CH (R105). -/
def execThaw (dt : Nat) (request : Request) (s : State) : Host.Outcome State Fault Refusal :=
  .next (arriveRequest 0x0C doThaw request (s.elapse dt))

/-- FETCH_EVENTS, Code 0DH (R161). -/
def execFetchEvents (dt : Nat) (request : Request) (s : State) : Host.Outcome State Fault Refusal :=
  .next (arriveRequest 0x0D doFetchEvents request (s.elapse dt))

/-- READ_SHADOW, Code 0EH (R91). -/
def execReadShadow (dt : Nat) (request : Request) (s : State) : Host.Outcome State Fault Refusal :=
  .next (arriveRequest 0x0E doReadShadow request (s.elapse dt))

/-- FORGET_SHADOW, Code 0FH (R90). -/
def execForgetShadow (dt : Nat) (request : Request) (s : State) : Host.Outcome State Fault Refusal :=
  .next (arriveRequest 0x0F doForgetShadow request (s.elapse dt))

/-- READ_LOADS, Code 10H (R128). -/
def execReadLoads (dt : Nat) (request : Request) (s : State) : Host.Outcome State Fault Refusal :=
  .next (arriveRequest 0x10 doReadLoads request (s.elapse dt))

/-- SET_NOTICE_DESTINATION, Code 11H (R158). -/
def execSetNoticeDestination (dt : Nat) (request : Request) (s : State) : Host.Outcome State Fault Refusal :=
  .next (arriveRequest 0x11 doSetNoticeDestination request (s.elapse dt))

/-- SET_SETTINGS, Code 12H (R157). -/
def execSetSettings (dt : Nat) (request : Request) (s : State) : Host.Outcome State Fault Refusal :=
  .next (arriveRequest 0x12 doSetSettings request (s.elapse dt))

/-- SAVE, Code 13H (R169). -/
def execSave (dt : Nat) (request : Request) (s : State) : Host.Outcome State Fault Refusal :=
  .next (arriveRequest 0x13 doSave request (s.elapse dt))

/-- RESTART, Code 14H (R172). -/
def execRestart (dt : Nat) (request : Request) (s : State) : Host.Outcome State Fault Refusal :=
  .next (arriveRequest 0x14 doRestart request (s.elapse dt))

end Sys2Proof.Machine
end

