-- ==== Sys2Proof/Machine/Startup.lean ====
section
/-! DEFINITION. The meanings of the reset, the start-up and the ends of a SAVE: RESET_N_ASSERT, RESET_N_RELEASE,
STARTING_END, SAVE_END, SAVE_TIMEOUT (10 R164 to R171). -/

namespace Sys2Proof.Machine

open Sys2Proof

/-- RESET_N goes low (R164): a SAVE is abandoned (R171) and every block returns to its reset value. -/
def assertReset (s : State) : State := if s.resetN then resetPart (abandonSave s) false else s

/-- RESET_N rises (R164): STARTING begins, the clock and the permit filter from its start. -/
def releaseReset (s : State) : State := if s.resetN then s else resetPart s true

/-- RESET_N_ASSERT. -/
def execResetNAssert (dt : Nat) (s : State) : Host.Outcome State Fault Refusal := .next (assertReset (s.elapse dt))

/-- RESET_N_RELEASE. -/
def execResetNRelease (dt : Nat) (s : State) : Host.Outcome State Fault Refusal := .next (releaseReset (s.elapse dt))

/-- STARTING_END (R165 to R168): nothing outside STARTING (log entry 3). -/
def execStartingEnd (dt : Nat) (memoryAnswers : Bool) (s : State) : Host.Outcome State Fault Refusal :=
  let u := s.elapse dt
  .next (if u.resetN ∧ u.mode = .starting then endStarting u memoryAnswers else u)

/-- SAVE_END (R170): nothing while no SAVE runs. -/
def execSaveEnd (dt : Nat) (misread : List (Nat × Byte)) (s : State) : Host.Outcome State Fault Refusal :=
  .next (noticing (fun s => endSave s misread) (s.elapse dt))

/-- SAVE_TIMEOUT (R170): nothing before acceptance plus 4000 ms. -/
def execSaveTimeout (dt : Nat) (s : State) : Host.Outcome State Fault Refusal := .next (expire .save (s.elapse dt))

end Sys2Proof.Machine
end

