-- ==== Sys2Proof/Machine/Dispatch.lean ====
section
/-! DEFINITION. The dispatch: one arm per command, each one call of its meaning. -/

namespace Sys2Proof.Machine

open Sys2Proof

/-- A command's effect on everything but the queue of waiting commands. -/
def exec (i : Instr) (s : State) : Host.Outcome State Fault Refusal :=
  match i with
  | .resetNAssert dt => Sys2Proof.Machine.execResetNAssert dt s
  | .resetNRelease dt => Sys2Proof.Machine.execResetNRelease dt s
  | .startingEnd dt memoryAnswers => Sys2Proof.Machine.execStartingEnd dt memoryAnswers s
  | .linkChanged dt port high => Sys2Proof.Machine.execLinkChanged dt port high s
  | .frameArrival dt port frame => Sys2Proof.Machine.execFrameArrival dt port frame s
  | .transmissionComplete dt port => Sys2Proof.Machine.execTransmissionComplete dt port s
  | .responseTimeout dt slot tag => Sys2Proof.Machine.execResponseTimeout dt slot tag s
  | .windowExpiry dt slot => Sys2Proof.Machine.execWindowExpiry dt slot s
  | .chgPermitPinChange dt high => Sys2Proof.Machine.execChgPermitPinChange dt high s
  | .permitFilterExpiry dt => Sys2Proof.Machine.execPermitFilterExpiry dt s
  | .intervalExpiry dt => Sys2Proof.Machine.execIntervalExpiry dt s
  | .idleExpiry dt downloadSlot => Sys2Proof.Machine.execIdleExpiry dt downloadSlot s
  | .lockoutEnd dt => Sys2Proof.Machine.execLockoutEnd dt s
  | .saveEnd dt misread => Sys2Proof.Machine.execSaveEnd dt misread s
  | .saveTimeout dt => Sys2Proof.Machine.execSaveTimeout dt s
  | .identify dt request => Sys2Proof.Machine.execIdentify dt request s
  | .readStatus dt request => Sys2Proof.Machine.execReadStatus dt request s
  | .readCounters dt request => Sys2Proof.Machine.execReadCounters dt request s
  | .tableRead dt request => Sys2Proof.Machine.execTableRead dt request s
  | .tableWrite dt request => Sys2Proof.Machine.execTableWrite dt request s
  | .bankCopy dt request => Sys2Proof.Machine.execBankCopy dt request s
  | .commit dt request => Sys2Proof.Machine.execCommit dt request s
  | .lockPolicy dt request => Sys2Proof.Machine.execLockPolicy dt request s
  | .setMode dt request => Sys2Proof.Machine.execSetMode dt request s
  | .openWindow dt request => Sys2Proof.Machine.execOpenWindow dt request s
  | .closeWindow dt request => Sys2Proof.Machine.execCloseWindow dt request s
  | .thaw dt request => Sys2Proof.Machine.execThaw dt request s
  | .fetchEvents dt request => Sys2Proof.Machine.execFetchEvents dt request s
  | .readShadow dt request => Sys2Proof.Machine.execReadShadow dt request s
  | .forgetShadow dt request => Sys2Proof.Machine.execForgetShadow dt request s
  | .readLoads dt request => Sys2Proof.Machine.execReadLoads dt request s
  | .setNoticeDestination dt request => Sys2Proof.Machine.execSetNoticeDestination dt request s
  | .setSettings dt request => Sys2Proof.Machine.execSetSettings dt request s
  | .save dt request => Sys2Proof.Machine.execSave dt request s
  | .restart dt request => Sys2Proof.Machine.execRestart dt request s

end Sys2Proof.Machine
end

