-- ==== Sys2Proof/Safety.lean ====
section
/-! DEFINITION. What counts as a safe run of the part. -/

namespace Sys2Proof

open Sys2Proof.Machine

/-- Safe for `n` steps: no step of the run from `s` ends in a fault or a refusal. -/
def safeFor : Nat → State → Prop
  | 0, _ => True
  | n + 1, s => ∃ t, step s = .next t ∧ safeFor n t

end Sys2Proof
end

