-- ==== Sys2Proof/Certificates/Slice0/Obligations.lean ====
section
/-! DEFINITION. The statements for the provers, and the terms they are stated in. -/

namespace Sys2Proof.Claims

open Sys2Proof Sys2Proof.Machine

/-! ### Terms: requests -/

/-- The request reaches its tests: the port is UP, the frame's length is 64 to 1522, the tests of R146 pass, and so do
tests 1 to 3 of R148. -/
abbrev Accepted (r : Request) (u : State) : Prop :=
  (u.port r.port).up = true ∧ (64 ≤ r.frameLength ∧ r.frameLength ≤ 1522) ∧
  (r.port = .net ∨ u.settings.cellManagement = true) ∧ isGroup r.source = false ∧
  (u.settings.sources = [] ∨ r.source ∈ u.settings.sources) ∧ (u.port r.port).replyQueue.length < 4 ∧
  r.version = 1 ∧ r.payloadLength.toNat ≤ r.payload.length

/-- The token test of R149 passes. -/
abbrev TokenPasses (r : Request) (u : State) : Prop := u.lockoutEnd = none ∧ r.token = u.settings.token

/-- The state after the part, at `u`, has received a request, its execution has led to `w`, and its response with a status
and payload is placed, with the NOTICE its records give rise to offered after it (log entry 17). -/
def answered (code : Byte) (r : Request) (u w : State) (status : Status) (payload : List Byte) : State :=
  noticeAfter u (offerReply w r.port ⟨.response, responseFrame u.station code r ⟨w, status, payload, false⟩⟩)

/-- `u` with the request counted in Received. -/
def received (r : Request) (u : State) : State := countReceived u r.port

/-- `u` with the request counted in Received and the token failure count at 0. -/
def admitted (r : Request) (u : State) : State := { countReceived u r.port with tokenFailures := 0 }

/-- The row of a request code. -/
def requestRow (code : Byte) (dt : Nat) (r : Request) : Option Instr :=
  match code.toNat with
  | 0x01 => some (.identify dt r)
  | 0x02 => some (.readStatus dt r)
  | 0x03 => some (.readCounters dt r)
  | 0x04 => some (.tableRead dt r)
  | 0x05 => some (.tableWrite dt r)
  | 0x06 => some (.bankCopy dt r)
  | 0x07 => some (.commit dt r)
  | 0x08 => some (.lockPolicy dt r)
  | 0x09 => some (.setMode dt r)
  | 0x0A => some (.openWindow dt r)
  | 0x0B => some (.closeWindow dt r)
  | 0x0C => some (.thaw dt r)
  | 0x0D => some (.fetchEvents dt r)
  | 0x0E => some (.readShadow dt r)
  | 0x0F => some (.forgetShadow dt r)
  | 0x10 => some (.readLoads dt r)
  | 0x11 => some (.setNoticeDestination dt r)
  | 0x12 => some (.setSettings dt r)
  | 0x13 => some (.save dt r)
  | 0x14 => some (.restart dt r)
  | _ => none

/-- The codes of the requests that need the token in every case (R143, R94, R105, R90, R157, R169, R172). -/
def tokenCodes : List Byte := [0x08, 0x0A, 0x0C, 0x0F, 0x12, 0x13, 0x14]

/-- The payload size that 11 section 11.2 gives each request but TABLE WRITE (R148, step 5). -/
def requestSize (code : Byte) : Option Nat :=
  match code.toNat with
  | 0x01 => some 0
  | 0x02 => some 0
  | 0x03 => some 1
  | 0x04 => some 6
  | 0x06 => some 0
  | 0x07 => some 0
  | 0x08 => some 0
  | 0x09 => some 1
  | 0x0A => some 4
  | 0x0B => some 2
  | 0x0C => some 2
  | 0x0D => some 1
  | 0x0E => some 6
  | 0x0F => some 6
  | 0x10 => some 0
  | 0x11 => some 10
  | 0x12 => some 36
  | 0x13 => some 0
  | 0x14 => some 0
  | _ => none

/-- A request that needs the token in the state in which it is executed: one of `tokenCodes`, or a SET MODE from ENFORCE to
PASSIVE (R148, R156). -/
abbrev NeedsToken (code : Byte) (r : Request) (u : State) : Prop :=
  code ∈ tokenCodes ∨ (code = 0x09 ∧ r.payloadLength = 1 ∧ byteAt r.payload 0 = 1 ∧ u.mode = .enforce)

/-- The frame that carries a request to a station address (R145, 11 section 11.1). -/
def wireFrame (station : MacAddress) (code : Byte) (r : Request) : List Byte :=
  withFcs (beBytes 6 station.toNat ++ beBytes 6 r.source.toNat ++
    (match r.vlanTag with
      | some t => beBytes 4 t.toNat
      | none => []) ++
    [0x88, 0xB6] ++ [r.version, code] ++ beBytes 2 r.tag.toNat ++ beBytes 8 r.token.toNat ++
    beBytes 2 r.payloadLength.toNat ++ r.payload)

/-- The request a command carries, with its code: a request row's own, or that of an arriving frame. -/
def carried : Instr → Option (Byte × Request)
  | .frameArrival _ p frame => requestOfFrame p (readLayers (withoutFcs frame))
  | .setMode _ r => some (0x09, r)
  | _ => none

/-! ### Terms: records, windows, loads -/

/-- Records added in their order (R159). -/
def addRecords (s : State) (l : List EventRecord) : State := l.foldl State.record s

/-- The guards with the state of the slots of a list replaced, scores kept. -/
def guardsWith (u : State) (l : List (Fin 16)) (g : GuardState) : Vector (Option SlotGuard) 16 :=
  Vector.ofFn (fun i => if i ∈ l then u.guards[i].map (fun x => { x with state := g }) else u.guards[i])

/-- The WINDOW_CLOSED record (R97). -/
def closedRecord (u : State) (reason : Reason) (source : Option MacAddress) (i : Fin 16) : EventRecord :=
  { time := u.clock, kind := .windowClosed, reason := some reason, slot := some i, source := source }

/-- The LOAD_ABORTED records of the LOADING records of a slot (R124, R127). -/
def windowAborts (u : State) (i : Fin 16) : List EventRecord :=
  (List.finRange 4).filterMap (fun d => match u.loads[d] with
    | some r =>
      if r.controller = i ∧ r.state = .loading then
        some
          { time := u.clock, kind := .loadAborted, reason := some .window, slot := some i, source := some r.source,
            extra := some r.byteCount.toNat }
      else none
    | none => none)

/-- The Download Record slots without the LOADING records of the slots of a list. -/
def loadsWithout (u : State) (l : List (Fin 16)) : Vector (Option Download) 4 :=
  Vector.ofFn (fun d => match u.loads[d] with
    | some r => if r.controller ∈ l ∧ r.state = .loading then none else some r
    | none => none)

/-- The windows of some slots in WINDOW closed for a reason other than POLICY and FROZEN (R97, R124). -/
def windowsClosed (u : State) (l : List (Fin 16)) (reason : Reason) (source : Option MacAddress) : State :=
  addRecords { u with guards := guardsWith u l .normal, loads := loadsWithout u l }
    (l.flatMap (fun i => closedRecord u reason source i :: windowAborts u i))

/-- At most one Download Record for each controller (R110). -/
abbrev OneLoadEach (u : State) : Prop :=
  ∀ d e : Fin 4, ∀ r q : Download, u.loads[d] = some r → u.loads[e] = some q → r.controller = q.controller → d = e

/-- The slots that a mask names and the active bank uses, ascending. -/
def named (u : State) (m : BitVec 16) : List (Fin 16) :=
  (List.finRange 16).filter (fun i => slotUsed u.activeBank i && m.getLsbD i)

/-- The interval count of a slot after a violation (R100). -/
def oneViolation (u : State) (slot : Fin 16) : Vector (Option SlotGuard) 16 :=
  Vector.ofFn (fun i => if i = slot then u.guards[i].map (fun g =>
    if g.state = .frozen ∨ g.intervalCount = 255 then g else { g with intervalCount := g.intervalCount + 1 })
    else u.guards[i])

/-! ### Terms: policy banks -/

/-- A walk: from a link, used rules one after another up to another link (R136). -/
def WalkTo (b : Bank) : BitVec 16 → List (Fin 256) → BitVec 16 → Prop
  | h, [], e => h = e
  | h, i :: rest, e => ruleIndex h = some i ∧ isUsed b.rules[i].used = true ∧ WalkTo b b.rules[i].next rest e

/-- A chain: a walk that ends at END (R38, R40). -/
abbrev ChainFrom (b : Bank) (h : BitVec 16) (l : List (Fin 256)) : Prop := WalkTo b h l chainEnd

/-- A link is END or an index 0 to 255 (R136). -/
abbrev LinkLegal (h : BitVec 16) : Prop := h = chainEnd ∨ h.toNat ≤ 255

/-- The walk from a link cycles: it passes 256 used rules, and the last names another (R136). -/
def Cycles (b : Bank) (h : BitVec 16) : Prop := ∃ l e, l.length = 256 ∧ WalkTo b h l e ∧ e.toNat ≤ 255

/-- A link that some walk starts from: the Common Head, or the Chain Head of a used slot (R139). -/
def IsHead (b : Bank) (h : BitVec 16) : Prop :=
  h = b.commonHead ∨ ∃ i : Fin 16, slotUsed b i = true ∧ h = b.controllers[i].chainHead

/-- A rule that some walk passes, used or unused (R136, R139). -/
def Reached (b : Bank) (k : Fin 256) : Prop :=
  ∃ h l e, IsHead b h ∧ WalkTo b h l e ∧ l.length < 256 ∧ ruleIndex e = some k

/-- A rule matches a command (R39): the class, the object for a class that has one, and the source. -/
def Matches (b : Bank) (c : Command) (k : Fin 256) : Prop :=
  b.rules[k].classSet.getLsbD (classNumber c.cls) = true ∧
  (hasObject c.cls = true → b.rules[k].objectFirst ≤ c.object ∧ c.object ≤ b.rules[k].objectLast) ∧
  (b.rules[k].groups = 0 ∨ ∃ (j : Fin 32) (g : Nat), isUsed b.sources[j].used = true ∧ b.sources[j].address = c.source ∧
    b.rules[k].groups.getLsbD g = true ∧ b.sources[j].groups.getLsbD g = true)

/-- A field of a width lies within 1500 bytes; one of width 0 is not looked at (R19). -/
abbrev FieldFits (off : BitVec 16) (w : Nat) : Prop := w = 0 ∨ off.toNat + w ≤ 1500

/-- What R137 asks of a used Profile. -/
def PassingProfile (p : Profile) : Prop :=
  (p.kind = 0 ∧ 0x0600 ≤ p.matchValue.toNat ∨ p.kind = 1 ∧ p.matchValue ≠ 0) ∧ p.byteOrder.toNat ≤ 1 ∧
  (p.codeWidth = 1 ∨ p.codeWidth = 2) ∧ (p.tagWidth = 0 ∨ p.tagWidth = 2 ∨ p.tagWidth = 4) ∧
  (p.objectWidth = 0 ∨ p.objectWidth = 2 ∨ p.objectWidth = 4) ∧ p.segmentFields.toNat ≤ 1 ∧ p.firstSegment.toNat ≤ 1 ∧
  (∃ cls, classOfByte p.unlistedClass = some cls) ∧ FieldFits p.codeOffset p.codeWidth.toNat ∧
  FieldFits p.tagOffset p.tagWidth.toNat ∧ FieldFits p.objectOffset p.objectWidth.toNat ∧ FieldFits p.valueOffset 1 ∧
  FieldFits p.statusOffset 1 ∧ FieldFits p.responseValueOffset 1 ∧
  (p.segmentFields = 1 →
    FieldFits p.segmentNumberOffset 2 ∧ FieldFits p.segmentLengthOffset 2 ∧ p.segmentPayloadOffset.toNat ≤ 1500)

/-- What R136 asks of a used Controller slot, but for its chain and for its address being no other's. -/
def PassingController (station : MacAddress) (b : Bank) (c : Controller) : Prop :=
  isGroup c.address = false ∧ c.address ≠ 0 ∧ c.address ≠ station ∧ c.unknownTraffic.toNat ≤ 1 ∧
  c.imageCheck.toNat ≤ 1 ∧ (c.scoreWindow = 1 ∨ c.scoreWindow = 2 ∨ c.scoreWindow = 4 ∨ c.scoreWindow = 8) ∧
  ∃ i : Fin 8, c.profile.toNat = i.val ∧ isUsed b.profiles[i].used = true ∧
    (c.imageCheck = 1 → b.profiles[i].tagWidth ≠ 0 ∧ b.profiles[i].segmentFields = 1)

/-- What R139 asks of a reached rule. -/
def PassingRule (r : Rule) : Prop :=
  r.classSet ≠ 0 ∧ r.classSet.getLsbD 7 = false ∧ r.objectFirst ≤ r.objectLast ∧ r.action.toNat ≤ 3 ∧
  (r.action = 3 → r.classSet = 2 ∧ r.outOfBand.toNat ≤ 1 ∧ r.freeInWindow.toNat ≤ 1 ∧
    ∃ t, valueTypeOfByte r.valueType = some t ∧ typeMin t ≤ boundNumber t r.low ∧
      boundNumber t r.low ≤ boundNumber t r.high ∧ boundNumber t r.high ≤ typeMax t ∧
      (r.step.toNat : Int) ≤ typeSpan t)

/-- What R138 asks of a used Approved Image entry. -/
def PassingImage (e : ApprovedImage) : Prop :=
  e.length ≠ 0 ∧ ∀ k < 8, 0x20 ≤ e.label.toNat / 256 ^ k % 256 ∧ e.label.toNat / 256 ^ k % 256 ≤ 0x7E

/-- What R136 to R139 ask of a bank that passes: among the rest, every chain reaches END over used rules (R40). -/
def PassingBank (station : MacAddress) (b : Bank) : Prop :=
  (∃ l, ChainFrom b b.commonHead l) ∧
  (∀ i : Fin 8, isUsed b.profiles[i].used = true → PassingProfile b.profiles[i] ∧
    ∀ j : Fin 32, isUsed b.codeMap[codeMapIndex i j].used = true →
      (∃ cls, classOfByte b.codeMap[codeMapIndex i j].cls = some cls) ∧
      ∀ k : Fin 32, isUsed b.codeMap[codeMapIndex i k].used = true →
        b.codeMap[codeMapIndex i j].code = b.codeMap[codeMapIndex i k].code → j = k) ∧
  (∀ i : Fin 16, slotUsed b i = true → PassingController station b b.controllers[i] ∧
    (∃ l, ChainFrom b b.controllers[i].chainHead l) ∧
    ∀ j : Fin 16, slotUsed b j = true → b.controllers[i].address = b.controllers[j].address → i = j) ∧
  (∀ i j : Fin 32, isUsed b.sources[i].used = true → isUsed b.sources[j].used = true →
    b.sources[i].address = b.sources[j].address → i = j) ∧
  (∀ (h : BitVec 16) (l : List (Fin 256)) (k : Fin 256), IsHead b h → ChainFrom b h l → k ∈ l →
    PassingRule b.rules[k]) ∧
  ∀ i : Fin 32, isUsed b.images[i].used = true → PassingImage b.images[i]

/-- An entry of a bank fails the conditions of R136 to R139; a condition on two entries fails at the higher (R135). -/
def EntryFails (station : MacAddress) (b : Bank) : TableId → Nat → Prop
  | .bankHeader, k => k = 0 ∧ (¬ LinkLegal b.commonHead ∨ Cycles b b.commonHead)
  | .profiles, k => ∃ i : Fin 8, i.val = k ∧ isUsed b.profiles[i].used = true ∧ ¬ PassingProfile b.profiles[i]
  | .codeMap, k => ∃ (i : Fin 8) (j : Fin 32), (codeMapIndex i j).val = k ∧ isUsed b.profiles[i].used = true ∧
      isUsed b.codeMap[codeMapIndex i j].used = true ∧
      (classOfByte b.codeMap[codeMapIndex i j].cls = none ∨
        ∃ m < j, isUsed b.codeMap[codeMapIndex i m].used = true ∧
          b.codeMap[codeMapIndex i m].code = b.codeMap[codeMapIndex i j].code)
  | .controllers, k => ∃ i : Fin 16, i.val = k ∧ slotUsed b i = true ∧
      (¬ PassingController station b b.controllers[i] ∨ ¬ LinkLegal b.controllers[i].chainHead ∨
        Cycles b b.controllers[i].chainHead ∨
        ∃ j < i, slotUsed b j = true ∧ b.controllers[j].address = b.controllers[i].address)
  | .sources, k => ∃ i : Fin 32, i.val = k ∧ isUsed b.sources[i].used = true ∧
      ∃ j < i, isUsed b.sources[j].used = true ∧ b.sources[j].address = b.sources[i].address
  | .rules, k => ∃ i : Fin 256, i.val = k ∧ Reached b i ∧
      (isUsed b.rules[i].used = false ∨ ¬ LinkLegal b.rules[i].next ∨ ¬ PassingRule b.rules[i])
  | .images, k => ∃ i : Fin 32, i.val = k ∧ isUsed b.images[i].used = true ∧ ¬ PassingImage b.images[i]

/-- The first entry that fails, tables in table id order and entries in ascending index (R135). -/
def FirstToFail (station : MacAddress) (b : Bank) (t : TableId) (k : Nat) : Prop :=
  EntryFails station b t k ∧
  ∀ t' k', tableCode t' < tableCode t ∨ (t' = t ∧ k' < k) → ¬ EntryFails station b t' k'

/-! ### Terms: frames -/

/-- The recogniser of a Profile accepts a frame (R14). -/
def Recognised (p : Profile) (downstream : Bool) (l : Layers) : Prop :=
  (p.kind = 0 ∧ l.payloadType = some p.matchValue ∧
    (downstream = true ∨ ∀ ip, readIpv4 l = some ip → ip.fragment = false)) ∨
  (p.kind = 1 ∧ ∃ u, readUdp l = some u ∧
    (if downstream = true then u.destinationPort else u.sourcePort) = p.matchValue)

/-- The fragment case of R14, for a downstream frame. -/
def FragmentCase (p : Profile) (l : Layers) : Prop :=
  p.kind = 1 ∧ ∃ ip, readIpv4 l = some ip ∧ ip.protocol = 17 ∧ ip.fragment = true

/-- The plain sum of the 16-bit words of a run, an odd last byte paired with a zero byte (R70). -/
def wordSum : List Byte → Nat
  | hi :: lo :: rest => hi.toNat * 256 + lo.toNat + wordSum rest
  | [hi] => hi.toNat * 256
  | [] => 0

/-- The check of R70 passes: the one's complement sum of pseudo-header and datagram is FFFFH. The plain sum is not 0, because
of the word 17, so that is to say that FFFFH divides it. -/
def Sound (u : Udp) : Prop :=
  0xFFFF ∣ wordSum (beBytes 4 u.ip.source.toNat ++ beBytes 4 u.ip.destination.toNat ++ [0, 17] ++
    beBytes 2 u.length.toNat ++ u.datagram)

/-- The offsets and widths of the fields that R28 requires of a class, besides Code. -/
def requiredFields (p : Profile) : CommandClass → List (Nat × Nat) :=
  let tag := if p.tagWidth = 0 then [] else [(p.tagOffset.toNat, p.tagWidth.toNat)]
  let object := if p.objectWidth = 0 then [] else [(p.objectOffset.toNat, p.objectWidth.toNat)]
  fun
    | .read => object
    | .writeValue => tag ++ object ++ [(p.valueOffset.toNat, 1)]
    | .writeOther => object
    | .control => []
    | .loadBegin => tag
    | .loadActivate => tag
    | .loadSegment =>
      tag ++ if p.segmentFields = 1 then [(p.segmentNumberOffset.toNat, 2), (p.segmentLengthOffset.toNat, 2)] else []

/-- A COMMAND under Profile `i` is MALFORMED with a reason, and its record carries an object or none (R28; for Object
Width 0 the object is the model's choice of log entry 19). -/
def MalformedAs (b : Bank) (i : Fin 8) (p : Profile) (l : Layers) (reason : Reason) (object : Option (BitVec 32)) :
    Prop :=
  (FragmentCase p l ∧ reason = .fragment ∧ object = none) ∨
  (¬ FragmentCase p l ∧ (protocolPayload p l).bytes.length < p.codeOffset.toNat + p.codeWidth.toNat ∧
    reason = .short ∧ object = none) ∨
  (¬ FragmentCase p l ∧ ∃ code, readCode p (protocolPayload p l).bytes = some code ∧
    (((∃ f ∈ requiredFields p (classOfCode b i code), (protocolPayload p l).bytes.length < f.1 + f.2) ∧
        reason = .short ∧
        object =
          if hasObject (classOfCode b i code) = true then readObject p (protocolPayload p l).bytes else none) ∨
      (classOfCode b i code = .loadSegment ∧ p.segmentFields = 1 ∧
        (∀ f ∈ requiredFields p .loadSegment, f.1 + f.2 ≤ (protocolPayload p l).bytes.length) ∧
        (protocolPayload p l).bytes.length <
          p.segmentPayloadOffset.toNat + (readSegment p (protocolPayload p l).bytes).length.toNat ∧
        reason = .segmentLength ∧ object = none)))

/-- A frame that arrives at the NET port reaches its classification: R3 and R5 pass and it is not MGMT. -/
abbrev ReachesRules (frame : List Byte) (u : State) : Prop :=
  u.net.up = true ∧ formatOk frame = true ∧ (readLayers (withoutFcs frame)).destination ≠ u.station ∧
  u.cell.forwardQueue.length < 32 ∧ u.cell.up = true

/-- The same at the CELL port, whatever the Link State of the NET port. -/
abbrev ReachesTracker (frame : List Byte) (u : State) : Prop :=
  u.cell.up = true ∧ formatOk frame = true ∧ (readLayers (withoutFcs frame)).destination ≠ u.station ∧
  u.net.forwardQueue.length < 32

/-- The COMMAND that a frame parses to, if it is one and passes R28. -/
def commandOf (b : Bank) (frame : List Byte) : Option Command :=
  match classifyDownstream b (readLayers (withoutFcs frame)) with
  | .command slot i p =>
    match parseCommand b slot i p (readLayers (withoutFcs frame)) with
    | .command c => some c
    | .malformed _ _ => none
  | .unguarded _ => none
  | .broadcastCommand => none
  | .response _ _ => none
  | .transit => none

/-- The CELL port sends what it would have sent: nothing was placed in its forward queue. -/
abbrev NotPlaced (u t : State) : Prop :=
  t.cell.forwardQueue = u.cell.forwardQueue ∧ t.cell.transmitter = u.cell.transmitter

/-- An upstream frame placed in the NET forward queue, or a Link Drop while the NET port is DOWN (R5, R18), with the frame
counted in Received. -/
def upstreamPlaced (w : State) (frame : List Byte) : State :=
  { w with
    net :=
      if w.net.up = true then placeForward w.net frame else { w.net with linkDrops := satAdd w.net.linkDrops 1 }
    cell := { w.cell with received := satAdd w.cell.received 1 } }

/-- What a negative or timeout report on a load-kind entry does to the record in its Download Slot (R122). -/
def reportFails (w : State) (slot : Fin 16) (kind : EntryKind) (d : Fin 4) : State :=
  match w.loads[d] with
  | none => w
  | some r =>
    if r.controller = slot then
      match kind, r.state with
      | .begin, .loading =>
        State.record { w with loads := w.loads.set d none }
          { time := w.clock, kind := .loadAborted, reason := some .refusedByController, slot := some slot,
            source := some r.source, extra := some r.byteCount.toNat }
      | .segment, .loading =>
        if r.retryAllowance.val ≤ 1 then
          State.record { w with loads := w.loads.set d none }
            { time := w.clock, kind := .loadAborted, reason := some .retries, slot := some slot,
              source := some r.source, extra := some r.byteCount.toNat }
        else { w with loads := w.loads.set d (some { r with retryAllowance := r.retryAllowance - 1 }) }
      | .activate, .activating k =>
        State.record { w with loads := w.loads.set d none }
          { time := w.clock, kind := .loadFailed, slot := some slot, source := some r.source, extra := some k.val }
      | _, _ => w
    else w

/-- What a positive report on a load-kind entry does (R122): an ACTIVATING record is accepted and freed. -/
def reportPasses (w : State) (slot : Fin 16) (kind : EntryKind) (d : Fin 4) : State :=
  match w.loads[d] with
  | none => w
  | some r =>
    if r.controller = slot then
      match kind, r.state with
      | .activate, .activating k =>
        State.record { w with loads := w.loads.set d none }
          { time := w.clock, kind := .loadAccepted, slot := some slot, source := some r.source, extra := some k.val }
      | _, _ => w
    else w

/-- The table with an entry made, in place of the one with its key (R75, R76). -/
def withEntry (u : State) (e : Outstanding) : List Outstanding :=
  u.outstanding.filter (fun x => !(x.slot == e.slot && x.tag == e.tag)) ++ [e]

/-- The table after a command that asks for an entry, or for none, and finds room. -/
def entered (u : State) : Option Outstanding → List Outstanding
  | some e => withEntry u e
  | none => u.outstanding

/-- The entry a load command asks for, none through a Profile without a tag (R48). -/
def loadEntry (u : State) (c : Command) (kind : EntryKind) (d : Option (Fin 4)) : Option Outstanding :=
  c.tag.map (fun tag =>
    { slot := c.slot, address := c.controller.address, tag := tag, kind := kind, downloadSlot := d,
      deadline := u.clock + responseTimeoutMs c.profile })

/-- The entry a permitted command asks for when no BOUND rule decoded its value and no load check was made (R48, R49). -/
def plainEntry (u : State) (c : Command) : Option Outstanding :=
  match c.cls with
  | .read =>
    match decidingRule u.activeBank { c with cls := .writeValue }, c.tag with
    | some k, some tag =>
      if u.activeBank.rules[k].action = 3 ∧ 0 < u.activeBank.rules[k].step.toNat then
        (valueTypeOfByte u.activeBank.rules[k].valueType).map (fun t =>
          { slot := c.slot, address := c.controller.address, tag := tag, kind := .read, object := some c.object,
            valueType := some t, deadline := u.clock + responseTimeoutMs c.profile })
      else none
    | _, _ => none
  | .writeValue =>
    c.tag.map (fun tag =>
      { slot := c.slot, address := c.controller.address, tag := tag, kind := .write, object := some c.object,
        deadline := u.clock + responseTimeoutMs c.profile })
  | .writeOther => none
  | .control => none
  | .loadBegin => loadEntry u c .begin none
  | .loadSegment => loadEntry u c .segment none
  | .loadActivate => loadEntry u c .activate none

/-- An entry finds room, or none is asked for. -/
abbrev Finds (u : State) (e : Option Outstanding) : Prop := ∀ x, e = some x → hasRoom u x.slot x.tag = true

/-- Steps 3 and 4 permit a command unchanged without looking at its value (R41 to R44). -/
def PermittedUnread (u : State) (c : Command) : Prop :=
  (c.cls = .read ∧ decidingRule u.activeBank c = none) ∨
  ∃ k, decidingRule u.activeBank c = some k ∧
    (u.activeBank.rules[k].action = 0 ∨ (u.activeBank.rules[k].action = 2 ∧ inWindow u c.slot = true) ∨
      (u.activeBank.rules[k].action = 3 ∧ u.activeBank.rules[k].freeInWindow = 1 ∧ inWindow u c.slot = true))

/-- The decision counters of a slot changed. -/
def counted (u : State) (slot : Fin 16) (f : DecisionCounters → DecisionCounters) : Vector DecisionCounters 16 :=
  u.decisions.set slot (f u.decisions[slot])

/-- A downstream frame dropped in ENFORCE and counted in Denied (R51, R53, R54): its record, its violation if it is one,
and for MALFORMED the Guard Drop. -/
def deniedFrame (u : State) (slot : Fin 16) (violation malformed : Bool) (e : EventRecord) : State :=
  noticeAfter u (State.record
    { u with
      net :=
        { u.net with
          received := satAdd u.net.received 1
          guardDrops := if malformed = true then satAdd u.net.guardDrops 1 else u.net.guardDrops }
      decisions := counted u slot (fun k => { k with denied := satAdd k.denied 1 })
      guards := if violation = true then oneViolation u slot else u.guards } e)

/-- The record a command's denial carries (R52): no value. -/
def denialOf (u : State) (c : Command) (kind : EventKind) (reason : Option Reason) (rule : Option (Fin 256)) :
    EventRecord :=
  { time := u.clock, kind := kind, reason := reason, slot := some c.slot, rule := rule, source := some c.source,
    object := if hasObject c.cls = true then some c.object else none }

/-- The record a refusal of the Load Checker carries (R127): no object. -/
def loadRefusal (u : State) (c : Command) (kind : EventKind) (reason : Option Reason) (extra : Option Nat) : EventRecord :=
  { time := u.clock, kind := kind, reason := reason, slot := some c.slot, rule := decidingRule u.activeBank c,
    source := some c.source, extra := extra }

/-- A frame permitted unchanged in ENFORCE, with the entry asked for (R48, R51, R54). -/
def permittedFrame (u : State) (c : Command) (e : Option Outstanding) (frame : List Byte) : State :=
  { u with
    net := { u.net with received := satAdd u.net.received 1 }
    decisions := counted u c.slot (fun x => { x with permitted := satAdd x.permitted 1 })
    outstanding := entered u e
    cell := placeForward u.cell frame }

/-- The PASSIVE counterpart of a record a decision makes in ENFORCE (R52); the other records of a frame are the same. -/
def counterpart (e : EventRecord) : EventRecord :=
  match e.kind, e.reason with
  | .denied, _ => { e with kind := .wouldDeny }
  | .malformed, _ => { e with kind := .wouldDeny }
  | .valueRefused, _ => { e with kind := .wouldRefuse }
  | .valueClamped, _ => { e with kind := .wouldClamp }
  | .loadNoSlot, _ => { e with kind := .wouldDeny, reason := some .loadNoSlot }
  | .loadOrphan, _ => { e with kind := .wouldDeny, reason := some .loadOrphan }
  | .loadRejected, _ => { e with kind := .wouldDeny, reason := some .loadRejected }
  | .loadAborted, some .restarted => e
  | .loadAborted, _ => { e with kind := .wouldDeny }
  | _, _ => e

/-! ### Terms: time -/

/-- The row that takes an expiry, at once. -/
def expiryRow : Timer → Instr
  | .permit => .permitFilterExpiry 0
  | .window i => .windowExpiry 0 i
  | .interval => .intervalExpiry 0
  | .response slot tag => .responseTimeout 0 slot tag
  | .idle d => .idleExpiry 0 d
  | .lockout => .lockoutEnd 0
  | .save => .saveTimeout 0

/-- No deadline the part holds lies before an instant. -/
abbrev NoneBefore (s : State) (limit : Nat) : Prop :=
  (∀ t, s.permitPeriod = some t → limit ≤ t) ∧
  (∀ i : Fin 16, ∀ g d, s.guards[i] = some g → g.state = .window d → limit ≤ d) ∧
  (∀ t, s.intervalNext = some t → limit ≤ t) ∧ (∀ e ∈ s.outstanding, limit ≤ e.deadline) ∧
  (∀ d : Fin 4, ∀ r, s.loads[d] = some r → limit ≤ r.idleDeadline) ∧
  (∀ t, s.lockoutEnd = some t → limit ≤ t) ∧ (∀ r, s.save = some r → limit ≤ r.limit)

/-! ### Terms: invariants -/

/-- The serial memory is in its canonical form. -/
abbrev MemoryCanonical (s : State) : Prop := memoryWf s.memory = true

/-- The queues are within their capacities (R6, R7, R159). -/
abbrev QueuesBounded (s : State) : Prop :=
  (s.net.forwardQueue.length ≤ 32 ∧ s.cell.forwardQueue.length ≤ 32) ∧
  (s.net.replyQueue.length ≤ 4 ∧ s.cell.replyQueue.length ≤ 4) ∧ s.events.length ≤ 64

/-- No two Outstanding entries have one slot and tag (R73). -/
abbrev EntriesUnique (s : State) : Prop := (s.outstanding.map (fun e => (e.slot, e.tag))).Nodup

/-- The tables are within their capacities and hold each key once (R73, R86, R110). -/
abbrev TablesBounded (s : State) : Prop :=
  (s.outstanding.length ≤ 64 ∧ EntriesUnique s) ∧
  (s.shadow.length ≤ 512 ∧ (s.shadow.map (fun e => (e.slot, e.object))).Nodup) ∧ OneLoadEach s

/-- Each used slot of the active bank, and no other, has a guard (R92); ALERT is asserted exactly while a slot is FROZEN
(R106); no window is open while the filtered permit is DEASSERTED (R99). -/
abbrev GuardsSound (s : State) : Prop :=
  (∀ i : Fin 16, s.guards[i].isSome = slotUsed s.activeBank i) ∧
  (s.alert = true ↔ ∃ i : Fin 16, ∃ g, s.guards[i] = some g ∧ g.state = .frozen) ∧
  (s.permit = false → ∀ i : Fin 16, ∀ g d, s.guards[i] = some g → g.state ≠ .window d)

/-- The active bank passes the checks of R135 to R139 under the part's station address. -/
abbrev BankConsistent (s : State) : Prop := firstFailure s.station s.activeBank = none

/-- No deadline has been passed over, and each Outstanding entry is found by its key. -/
abbrev DeadlinesAhead (s : State) : Prop := NoneBefore s s.clock ∧ EntriesUnique s

/-- The records stand in order of time, none later than the clock (R159). -/
abbrev EventsOrdered (s : State) : Prop :=
  (s.events.map (fun e => e.time)).Pairwise (fun a b => a ≤ b) ∧ ∀ e ∈ s.events, e.time ≤ s.clock

/-! ### Terms: tables and images -/

/-- The reserved bytes of a table's entry (11 section 11.4). -/
def reservedAt : TableId → Nat → Bool
  | .bankHeader, k => 2 ≤ k
  | .profiles, k => k == 14 || k == 15 || 34 ≤ k
  | .codeMap, _ => false
  | .controllers, k => 14 ≤ k
  | .sources, _ => false
  | .rules, k => k == 9 || 34 ≤ k
  | .images, k => k == 1

/-- A run of entries as it is stored: reserved bytes 00H (R174). -/
def storedBytes (t : TableId) (l : List Byte) : List Byte :=
  l.mapIdx (fun k b => if reservedAt t (k % tableEntrySize t) then 0 else b)

/-- The address in place `k` of a settings block (11 section 11.6). -/
abbrev placeAt (l : List Byte) (k : Nat) : MacAddress := be48At l (4 + 6 * k)

/-- A settings block fails the check of R166: a condition of R157, or a notice set or VLAN present byte that no code names
(R175). -/
def SettingsFail (l : List Byte) : Prop :=
  4 < (byteAt l 0).toNat ∨
  (∃ k < (byteAt l 0).toNat, isGroup (placeAt l k) = true ∨ placeAt l k = 0 ∨ ∃ j < k, placeAt l j = placeAt l k) ∨
  1 < (byteAt l 1).toNat ∨ (byteAt l 2 ≠ 1 ∧ byteAt l 2 ≠ 2) ∨ 1 < (byteAt l 3).toNat ∨
  1 < (byteAt l 36).toNat ∨ (byteAt l 36 = 1 ∧ 1 < (byteAt l 37).toNat)

/-- Working settings that SET SETTINGS and SET NOTICE DESTINATION can make (R157, R158). -/
abbrev SettingsLegal (t : Settings) : Prop :=
  t.sources.length ≤ 4 ∧ (∀ a ∈ t.sources, isGroup a = false ∧ a ≠ 0) ∧ t.sources.Nodup

/-- The serial memory holds a complete image of settings and a bank (11 section 11.6). -/
abbrev ImageInMemory (m : List (Nat × Byte)) (t : Settings) (b : Bank) : Prop :=
  memoryRun 16 headerAddress m = headerBytes markComplete (bodyBytes t b) ∧
  memoryRun bodyLength bodyAddress m = bodyBytes t b

/-- The station address that the identity record in a memory gives (R165). -/
def identityStation (m : List (Nat × Byte)) : MacAddress := stationOf (memoryRun 10 0 m)

/-! ### Terms: starts -/

/-- A start (R165 to R168): a station address, an outcome, settings and a bank installed, and the records of R168 in their
order, the first with its NOTICE. -/
def startedAs (u : State) (station : MacAddress) (outcome : StartOutcome) (t : Settings) (b : Bank) : State :=
  let v := noticeAfter u (State.record
    { u with
      alert := false
      station := station
      startOutcome := some outcome
      settings := t
      bankA := b
      bankB := {}
      active := .a
      lock := t.lockAtStart
      mode := if t.startEnforce = true then .enforce else .passive
      guards := Vector.ofFn (fun i => if slotUsed b i = true then some {} else none)
      intervalNext := some (u.clock + 1000) }
    { time := u.clock, kind := .started, reason := some (outcomeReason outcome) })
  addRecords
    { v with
      net := { v.net with up := v.net.up || u.netLink }
      cell := { v.cell with up := v.cell.up || u.cellLink } }
    ((if u.netLink = true then [{ time := u.clock, kind := .linkChanged, extra := some 1 }] else []) ++
      (if u.cellLink = true then [{ time := u.clock, kind := .linkChanged, extra := some 3 }] else []) ++
      [{ time := u.clock, kind := .modeChanged, extra := some (if t.startEnforce = true then 2 else 1) }])

/-! ### Terms: event records on the wire -/

/-- The code of each event kind (11 section 11.5). -/
def kindTable : List (EventKind × Byte) :=
  [(.denied, 0x01), (.valueClamped, 0x02), (.valueRefused, 0x03), (.malformed, 0x04), (.trackFull, 0x05),
    (.wouldDeny, 0x06), (.wouldClamp, 0x07), (.wouldRefuse, 0x08), (.responseNegative, 0x09), (.responseTimeout, 0x0A),
    (.windowOpened, 0x0B), (.windowClosed, 0x0C), (.frozen, 0x0D), (.thawed, 0x0E), (.loadStarted, 0x0F),
    (.loadAborted, 0x10), (.loadOrphan, 0x11), (.loadNoSlot, 0x13), (.loadRejected, 0x14), (.loadAccepted, 0x15),
    (.loadFailed, 0x16), (.committed, 0x17), (.modeChanged, 0x18), (.policyLocked, 0x19), (.linkChanged, 0x1A),
    (.tokenLockout, 0x1B), (.saveDone, 0x1C), (.saveFailed, 0x1D), (.started, 0x1E)]

/-- The code of each reason (11 section 11.5). -/
def reasonTable : List (Reason × Byte) :=
  [(.rule, 0x01), (.noWindow, 0x02), (.default, 0x03), (.frozen, 0x04), (.unguarded, 0x05), (.outOfBand, 0x06),
    (.noAdmissible, 0x07), (.fragment, 0x08), (.short, 0x09), (.badChecksum, 0x0A), (.segmentLength, 0x0B),
    (.broadcastCommand, 0x0C), (.trackFull, 0x0D), (.outOfOrder, 0x0E), (.substituted, 0x0F), (.sourceChanged, 0x10),
    (.retries, 0x11), (.idle, 0x12), (.window, 0x13), (.link, 0x14), (.policy, 0x15), (.restarted, 0x16),
    (.tooLong, 0x17), (.refusedByController, 0x18), (.loadNoSlot, 0x19), (.loadOrphan, 0x1A), (.loadRejected, 0x1B),
    (.request, 0x1C), (.expired, 0x1D), (.permit, 0x1E), (.goodImage, 0x1F), (.noImage, 0x20), (.badImage, 0x21)]

/-- The 44 bytes of an event record (11 section 11.5): an absent field is zero bytes, and its presence flag is clear. -/
def RecordLaidOut (e : EventRecord) (p : List Byte) : Prop :=
  p.length = 44 ∧ be48At p 0 = BitVec.ofNat 48 e.time ∧ (e.kind, byteAt p 6) ∈ kindTable ∧
  (match e.reason with
    | some r => (r, byteAt p 7) ∈ reasonTable
    | none => byteAt p 7 = 0) ∧
  be16At p 8 = BitVec.ofNat 16
    ((if e.reason.isSome then 2 ^ 0 else 0) + (if e.slot.isSome then 2 ^ 1 else 0) + (if e.rule.isSome then 2 ^ 2 else 0) +
      (if e.source.isSome then 2 ^ 3 else 0) + (if e.object.isSome then 2 ^ 4 else 0) +
      (if e.requested.isSome then 2 ^ 5 else 0) + (if e.forwarded.isSome then 2 ^ 6 else 0) +
      (if e.extra.isSome then 2 ^ 7 else 0)) ∧
  (byteAt p 10).toNat = (e.slot.map Fin.val).getD 0 ∧ (byteAt p 11).toNat = (e.rule.map Fin.val).getD 0 ∧
  be48At p 12 = e.source.getD 0 ∧ be32At p 18 = e.object.getD 0 ∧
  be64At p 22 = BitVec.ofInt 64 (e.requested.getD 0) ∧ be64At p 30 = BitVec.ofInt 64 (e.forwarded.getD 0) ∧
  be32At p 38 = BitVec.ofNat 32 (e.extra.getD 0) ∧ be16At p 42 = 0

end Sys2Proof.Claims

open Sys2Proof Sys2Proof.Machine Sys2Proof.Claims

/-! ### The queue, time, events -/

/-- The front command runs on the state with the queue's rest; on an empty queue one millisecond passes, the model's choice
of log entry 2. -/
def Obligations.StepRunsTheFrontCommand : Prop :=
  (∀ (c : Instr) (rest : List Instr) (s : State),
    step { s with pending := c :: rest } = exec c { s with pending := rest }) ∧
  ∀ s : State, s.pending = [] → step s = .next (s.elapse 1)

/-- No command touches the queue of waiting commands. -/
def Obligations.CommandsLeaveTheQueueAlone : Prop :=
  ∀ (c : Instr) (s t : State), exec c s = .next t → t.pending = s.pending

/-- Time that meets no deadline moves the clock alone; in reset nothing moves (log entries 1 and 11). -/
def Obligations.QuietTimeMovesTheClockAlone : Prop :=
  ∀ (s : State) (n : Nat),
    (s.resetN = true → NoneBefore s (s.clock + n) → s.elapse n = { s with clock := s.clock + n }) ∧
    (s.resetN = false → s.elapse n = s)

/-- R159: a record is added at the newest end, or discarded with the overflow flag SET when 64 are held. R162: a record
added to an empty queue offers one NOTICE to the NET reply queue, placed, counted as lost, or discarded with the port
DOWN; the bytes of a NOTICE and of a record are those of ResponseFrameIsLaidOut. -/
def Obligations.EventQueueHoldsSixtyFourAndOffersNotices : Prop :=
  (∀ (s : State) (e : EventRecord),
    s.record e =
      if s.events.length < 64 then { s with events := s.events ++ [e] } else { s with overflow := true }) ∧
  (∀ (u w : State), u.events ≠ [] ∨ w.events = [] ∨ w.settings.notice = none → noticeAfter u w = w) ∧
  ∀ (u w : State) (e : EventRecord) (rest : List EventRecord) (n : NoticeDestination),
    u.events = [] → w.events = e :: rest → w.settings.notice = some n →
    noticeAfter u w =
      if w.net.up = false then w
      else if w.net.replyQueue.length < 4 then
        { w with net := placeReply w.net ⟨.notice, noticeFrame w n e u.overflow⟩ }
      else { w with management := { w.management with noticesLost := satAdd w.management.noticesLost 1 } }

/-! ### Reset and start -/

/-- The values of 10.6 and of the rules it names, in the state after reset. -/
def Obligations.ResetLeavesTheStatedValues : Prop :=
  State.reset.clock = 0 ∧ State.reset.mode = .starting ∧ State.reset.net = {} ∧ State.reset.cell = {} ∧
  (∀ i : Fin 16, State.reset.decisions[i] = {}) ∧ State.reset.outstanding = [] ∧ State.reset.shadow = [] ∧
  (∀ i : Fin 16, State.reset.guards[i] = none) ∧ State.reset.permit = false ∧ State.reset.alert = false ∧
  State.reset.intervalNext = none ∧ (∀ d : Fin 4, State.reset.loads[d] = none) ∧
  (∀ i : Fin 16, slotUsed State.reset.bankA i = false ∧ slotUsed State.reset.bankB i = false) ∧
  (State.reset.bankA.commonHead = 0xFFFF#16 ∧ State.reset.bankB.commonHead = 0xFFFF#16) ∧
  State.reset.active = .a ∧ State.reset.lock = false ∧ State.reset.tokenFailures = 0 ∧ State.reset.lockoutEnd = none ∧
  State.reset.management = {} ∧ State.reset.events = [] ∧ State.reset.overflow = false ∧ State.reset.save = none ∧
  State.reset.lastSave = .none ∧ State.reset.restartPending = false

/-- RESET_N_ASSERT (R164, R171): every block at its reset value; a running SAVE is abandoned, and the memory outside the
image's body keeps every byte, the Save Mark among them. The model's readings: the pins, the serial memory, the queue and
the count of free values are kept (log entry 26); the station, settings and start outcome it holds until STARTING ends
(log entries 7, 8 and 27); RESET_N low already changes nothing (log entries 3 and 11). -/
def Obligations.ResetNAssertReturnsEveryBlock : Prop :=
  ∀ (dt : Nat) (s : State),
    (s.resetN = false → exec (.resetNAssert dt) s = .next s) ∧
    (s.resetN = true → memoryWf (s.elapse dt).memory = true →
      ∃ t, exec (.resetNAssert dt) s = .next t ∧
        t = { State.reset with
          resetN := false
          netLink := s.netLink
          cellLink := s.cellLink
          chgPermit := s.chgPermit
          memory := t.memory
          freeValues := t.freeValues
          pending := s.pending } ∧
        ((s.elapse dt).save = none → t.memory = (s.elapse dt).memory) ∧
        ∀ a : Nat, a < bodyAddress ∨ bodyAddress + bodyLength ≤ a →
          memoryRead t.memory a = memoryRead (s.elapse dt).memory a)

/-- RESET_N_RELEASE (R164, R98): STARTING begins with the clock at 0, and the permit filter runs. The model's readings: the
pins and the memory are kept (log entry 26); the station and settings it holds until STARTING ends (log entries 7 and
8); with RESET_N high already only time passes (log entry 3). -/
def Obligations.ResetNReleaseBeginsStarting : Prop :=
  ∀ (dt : Nat) (s : State),
    exec (.resetNRelease dt) s =
      if s.resetN = true then .next (s.elapse dt)
      else
        .next
          { State.reset with
            netLink := s.netLink
            cellLink := s.cellLink
            chgPermit := s.chgPermit
            permitPeriod := if s.chgPermit = true then some 20 else none
            memory := s.memory
            freeValues := s.freeValues
            pending := s.pending }

/-- STARTING_END without a good image (R165, R167, R168): the fallback state, PASSIVE, with the records of R168; a memory that
does not answer, or whose Marker is wrong, is a NO_IMAGE start; a right Marker with a wrong Format Version, Save Mark,
Length or CRC, or a body that fails its check, is a BAD_IMAGE start. The identity record's address becomes the station
address when its Check is right and it is unicast and non-zero, else the fallback address does (R165); a settings block
fails the check of R166 exactly when a condition of R157 or R175 is broken, and one that passes gives the settings of its
fields. The model's choices: the other fields of the unused entries are 0 (log entry 9); in reset, or with STARTING over,
only time passes (log entry 3); a notice address of zero is installed as stored (log entry 23). -/
def Obligations.StartWithoutMemoryFallsBack : Prop :=
  (∀ (dt : Nat) (answers : Bool) (s : State), (s.elapse dt).resetN = false ∨ (s.elapse dt).mode ≠ .starting →
    exec (.startingEnd dt answers) s = .next (s.elapse dt)) ∧
  (∀ (m : List (Nat × Byte)) (a : MacAddress), a = be48At (memoryRun 6 0 m) 0 → ∀ right : Prop,
    (right ↔ be32At (memoryRun 4 6 m) 0 = crc32 (memoryRun 6 0 m) ∧ isGroup a = false ∧ a ≠ 0) →
    (right → identityStation m = a) ∧ (¬ right → identityStation m = 0x02006C000416#48)) ∧
  (∀ l : List Byte, (SettingsFail l → settingsOfBlock l = none) ∧
    (¬ SettingsFail l → settingsOfBlock l = some
      { sources := (List.range (byteAt l 0).toNat).map (placeAt l)
        cellManagement := decide (byteAt l 1 = 1)
        startEnforce := decide (byteAt l 2 = 2)
        lockAtStart := decide (byteAt l 3 = 1)
        token := be64At l 28
        notice :=
          if byteAt l 36 = 1 then some ⟨be48At l 40, if byteAt l 37 = 1 then some (be16At l 38) else none⟩
          else none })) ∧
  ∀ (dt : Nat) (s : State), (s.elapse dt).resetN = true → (s.elapse dt).mode = .starting →
    exec (.startingEnd dt false) s = .next (startedAs (s.elapse dt) 0x02006C000416#48 .noImage {} {}) ∧
    ∀ header body : List Byte, header = memoryRun 16 headerAddress (s.elapse dt).memory →
      body = memoryRun bodyLength bodyAddress (s.elapse dt).memory →
      (be32At header 0 ≠ imageMarker →
        exec (.startingEnd dt true) s =
          .next (startedAs (s.elapse dt) (identityStation (s.elapse dt).memory) .noImage {} {})) ∧
      (be32At header 0 = imageMarker →
        byteAt header 4 ≠ 1 ∨ byteAt header 5 ≠ markComplete ∨ (be32At header 8).toNat ≠ 11732 ∨
          crc32 body ≠ be32At header 12 ∨ settingsOfBlock (body.take 48) = none ∨
          firstFailure (identityStation (s.elapse dt).memory) (bankOfBytes (body.drop 48)) ≠ none →
        exec (.startingEnd dt true) s =
          .next (startedAs (s.elapse dt) (identityStation (s.elapse dt).memory) .badImage {} {}))

/-- An image of settings and a bank in the serial memory, the bank passing its checks under the identity record's address,
gives a good-image start on them, with the records of R168 and the ports that come UP (R165, R166, R168). The model's
choice: the other fields of the unused entries of bank B are 0 (log entry 9). -/
def Obligations.SavedImageStartsTheSavedPolicy : Prop :=
  ∀ (dt : Nat) (s : State) (t : Settings) (b : Bank), (s.elapse dt).resetN = true → (s.elapse dt).mode = .starting →
    ImageInMemory (s.elapse dt).memory t b → SettingsLegal t →
    firstFailure (identityStation (s.elapse dt).memory) b = none →
    exec (.startingEnd dt true) s =
      .next (startedAs (s.elapse dt) (identityStation (s.elapse dt).memory) .goodImage t b)

/-- The bank of an image reads back as the bank it was written from (R170, R175). -/
def Obligations.BankImageRoundTrip : Prop := ∀ b : Bank, bankOfBytes (bankBytes b) = b

/-- A run of entries written reads back as received, reserved bytes 00H, and no other entry changes (R131, R132, R174). -/
def Obligations.WrittenEntriesReadBack : Prop :=
  ∀ (t : TableId) (n i : Nat) (l : List Byte) (b : Bank), i + n ≤ tableEntries t → l.length = n * tableEntrySize t →
    runBytes t n i (writeRun t n i l b) = storedBytes t l ∧
    (∀ k, k < i ∨ i + n ≤ k → entryBytes t k (writeRun t n i l b) = entryBytes t k b) ∧
    ∀ t' k, t' ≠ t → entryBytes t' k (writeRun t n i l b) = entryBytes t' k b

/-- SAVE_END (R170): with a read-back that matches, the memory holds a complete image of the snapshot and SAVE_DONE is
recorded; with one that differs, the Marker stands, the Save Mark is INCOMPLETE and SAVE_FAILED is recorded. Outside the
image no byte changes. The model's choices: when the writes are made (log entry 13), what a failing memory holds (log
entry 15), and that with no SAVE running only time passes (log entry 3). -/
def Obligations.SaveEndLeavesTheImage : Prop :=
  (∀ (dt : Nat) (misread : List (Nat × Byte)) (s : State), (s.elapse dt).save = none →
    exec (.saveEnd dt misread) s = .next (s.elapse dt)) ∧
  ∀ (dt : Nat) (misread : List (Nat × Byte)) (s : State) (run : SaveRun), (s.elapse dt).save = some run →
    memoryWf (s.elapse dt).memory = true →
    ∃ w, exec (.saveEnd dt misread) s = .next w ∧
      (readBackMatches misread headerAddress
          (headerBytes markIncomplete (bodyBytes run.settings run.bank) ++ bodyBytes run.settings run.bank) = true →
        ImageInMemory w.memory run.settings run.bank ∧
        w = noticeAfter (s.elapse dt)
          (State.record { s.elapse dt with save := none, lastSave := .done, memory := w.memory }
            { time := (s.elapse dt).clock, kind := .saveDone, source := some run.requester,
              extra := some (bankCode run.bankId) })) ∧
      (readBackMatches misread headerAddress
          (headerBytes markIncomplete (bodyBytes run.settings run.bank) ++ bodyBytes run.settings run.bank) = false →
        memoryRead w.memory (headerAddress + 5) = markIncomplete ∧
        be32At (memoryRun 16 headerAddress w.memory) 0 = imageMarker ∧
        w = noticeAfter (s.elapse dt)
          (State.record { s.elapse dt with save := none, lastSave := .failed, memory := w.memory }
            { time := (s.elapse dt).clock, kind := .saveFailed, source := some run.requester,
              extra := some (bankCode run.bankId) })) ∧
      ∀ a : Nat, a < headerAddress ∨ bodyAddress + bodyLength ≤ a →
        memoryRead w.memory a = memoryRead (s.elapse dt).memory a

/-- SAVE_TIMEOUT at the limit of a running SAVE (R170): SAVE_FAILED, the Save Mark and every byte outside the body kept;
before the limit, or with none running, only time passes (the model's choice, log entry 3). -/
def Obligations.SaveTimeoutFailsTheSave : Prop :=
  ∀ (dt : Nat) (s : State),
    (∀ run, (s.elapse dt).save = some run → run.limit ≤ (s.elapse dt).clock → memoryWf (s.elapse dt).memory = true →
      ∃ w, exec (.saveTimeout dt) s = .next w ∧
        w = noticeAfter (s.elapse dt)
          (State.record
            { s.elapse dt with
              save := none, lastSave := .failed, memory := w.memory, freeValues := w.freeValues }
            { time := (s.elapse dt).clock, kind := .saveFailed, source := some run.requester,
              extra := some (bankCode run.bankId) }) ∧
        ∀ a : Nat, a < bodyAddress ∨ bodyAddress + bodyLength ≤ a →
          memoryRead w.memory a = memoryRead (s.elapse dt).memory a) ∧
    ((s.elapse dt).save = none ∨ (∃ run, (s.elapse dt).save = some run ∧ (s.elapse dt).clock < run.limit) →
      exec (.saveTimeout dt) s = .next (s.elapse dt))

/-! ### Ports -/

/-- LINK_CHANGED to low on a started part (R1, R2, R84, R124): the port DOWN with both queues and the transmitter emptied, a
Link Drop for each forward frame, LINK_CHANGED recorded, every Download Record aborted with reason LINK, and on CELL the
Outstanding Table and the Shadow Store emptied. When the response of a RESTART is among the replies discarded, the reset
is taken (R172), the pins and memory kept (log entry 26). -/
def Obligations.LinkDownEmptiesThePort : Prop :=
  (∀ (dt : Nat) (p : Port) (s : State), (s.elapse dt).resetN = true → (s.elapse dt).mode ≠ .starting →
    (s.elapse dt).link p = true →
    (∃ r ∈ transmitterReplies ((s.elapse dt).port p).transmitter ++ ((s.elapse dt).port p).replyQueue,
      r.kind = .restartResponse) →
    exec (.linkChanged dt p false) s = .next (resetPart ((s.elapse dt).setLink p false) true)) ∧
  ∀ (dt : Nat) (p : Port) (s : State), (s.elapse dt).resetN = true → (s.elapse dt).mode ≠ .starting →
    (s.elapse dt).link p = true →
    (∀ r ∈ transmitterReplies ((s.elapse dt).port p).transmitter ++ ((s.elapse dt).port p).replyQueue,
      r.kind ≠ .restartResponse) →
    exec (.linkChanged dt p false) s =
      .next (noticeAfter (s.elapse dt) (addRecords
        { ((s.elapse dt).setLink p false).setPort p
            { (s.elapse dt).port p with
              up := false
              forwardQueue := []
              replyQueue := []
              transmitter := .free
              linkDrops := satAdd ((s.elapse dt).port p).linkDrops
                (((s.elapse dt).port p).forwardQueue.length +
                  (transmitterForwards ((s.elapse dt).port p).transmitter).length) } with
          outstanding := if p = .cell then [] else (s.elapse dt).outstanding
          shadow := if p = .cell then [] else (s.elapse dt).shadow
          loads := Vector.replicate 4 none }
        ({ time := (s.elapse dt).clock, kind := .linkChanged, extra := some (if p = .cell then 2 else 0) } ::
          (List.finRange 4).filterMap (fun d => (s.elapse dt).loads[d].map (fun r =>
            { time := (s.elapse dt).clock, kind := .loadAborted, reason := some .link, slot := some r.controller,
              source := some r.source, extra := some r.byteCount.toNat })))))

/-- LINK_CHANGED to high on a started part (R1, R2): the Link State, one record, and the NOTICE that the record gives rise to,
which finds NET already UP (log entry 33); in reset and STARTING the pin alone (log entry 29); at the level the pin has,
nothing (log entry 3). -/
def Obligations.LinkUpMovesTheLinkStateAlone : Prop :=
  ∀ (dt : Nat) (p : Port) (s : State),
    ((s.elapse dt).resetN = true → (s.elapse dt).mode ≠ .starting → (s.elapse dt).link p = false →
      exec (.linkChanged dt p true) s =
        .next (noticeAfter (s.elapse dt) (State.record
          (((s.elapse dt).setLink p true).setPort p { (s.elapse dt).port p with up := true })
          { time := (s.elapse dt).clock, kind := .linkChanged, extra := some (if p = .cell then 3 else 1) }))) ∧
    ((s.elapse dt).resetN = false ∨ (s.elapse dt).mode = .starting → ∀ high,
      exec (.linkChanged dt p high) s = .next ((s.elapse dt).setLink p high)) ∧
    ∀ high, (s.elapse dt).link p = high → exec (.linkChanged dt p high) s = .next (s.elapse dt)

/-- The grants of the arbiter, case by case, and what is placed in a queue: at its tail, sent at once when the port is UP,
the transmitter FREE and both queues empty (R6 to R8). TRANSMISSION_COMPLETE (R8, R172): a frame of the forward queue is
counted in Forwarded, and the next grant is made; a reply is reported, and the report on a RESTART's response takes the
reset, which keeps the pins and the memory (log entry 26). With the transmitter FREE only time passes (log entry 3). -/
def Obligations.TransmissionCompleteFreesAndGrants : Prop :=
  (∀ ps : PortState,
    (ps.up = false ∨ ps.transmitter ≠ .free ∨ (ps.forwardQueue = [] ∧ ps.replyQueue = []) → grant ps = ps) ∧
    (ps.up = true → ps.transmitter = .free →
      (∀ f fs, ps.forwardQueue = f :: fs → ps.replyQueue = [] ∨ ps.lastGrant = .reply →
        grant ps = { ps with forwardQueue := fs, transmitter := .forward f, lastGrant := .forward }) ∧
      ∀ r rs, ps.replyQueue = r :: rs → ps.forwardQueue = [] ∨ ps.lastGrant = .forward →
        grant ps = { ps with replyQueue := rs, transmitter := .reply r, lastGrant := .reply })) ∧
  (∀ (ps : PortState) (f : List Byte) (r : Reply),
    (ps.up = false ∨ ps.transmitter ≠ .free ∨ ps.forwardQueue ≠ [] →
      placeForward ps f = { ps with forwardQueue := ps.forwardQueue ++ [f] }) ∧
    (ps.up = false ∨ ps.transmitter ≠ .free ∨ ps.replyQueue ≠ [] →
      placeReply ps r = { ps with replyQueue := ps.replyQueue ++ [r] }) ∧
    (ps.up = true → ps.transmitter = .free → ps.forwardQueue = [] → ps.replyQueue = [] →
      placeForward ps f = { ps with transmitter := .forward f, lastGrant := .forward } ∧
      placeReply ps r = { ps with transmitter := .reply r, lastGrant := .reply })) ∧
  ∀ (dt : Nat) (p : Port) (s : State),
    (((s.elapse dt).port p).transmitter = .free →
      exec (.transmissionComplete dt p) s = .next (s.elapse dt)) ∧
    (∀ f, ((s.elapse dt).port p).transmitter = .forward f →
      exec (.transmissionComplete dt p) s =
        .next ((s.elapse dt).setPort p (grant
          { (s.elapse dt).port p with
            transmitter := .free
            forwarded := satAdd ((s.elapse dt).port p).forwarded 1 }))) ∧
    ∀ r, ((s.elapse dt).port p).transmitter = .reply r →
      exec (.transmissionComplete dt p) s =
        if r.kind = .restartResponse then .next (resetPart (s.elapse dt) true)
        else .next ((s.elapse dt).setPort p (grant { (s.elapse dt).port p with transmitter := .free }))

/-- FRAME_ARRIVAL of a frame that goes no further (R1, R3, R5, R145): at a DOWN port nothing; a bad format, a full forward
queue, a downstream frame with the CELL port DOWN, and a management frame that is no request count once each, and
nothing else changes. -/
def Obligations.FramesThatCannotPassAreCounted : Prop :=
  ∀ (dt : Nat) (p : Port) (frame : List Byte) (s : State),
    (((s.elapse dt).port p).up = false → exec (.frameArrival dt p frame) s = .next (s.elapse dt)) ∧
    (((s.elapse dt).port p).up = true →
      formatOk frame = false ∨
        ((readLayers (withoutFcs frame)).destination = (s.elapse dt).station ∧
          (readLayers (withoutFcs frame)).stacked = true) →
      exec (.frameArrival dt p frame) s =
        .next ((s.elapse dt).setPort p
          { (s.elapse dt).port p with
            received := satAdd ((s.elapse dt).port p).received 1
            formatDrops := satAdd ((s.elapse dt).port p).formatDrops 1 })) ∧
    (((s.elapse dt).port p).up = true → formatOk frame = true →
      (readLayers (withoutFcs frame)).destination = (s.elapse dt).station →
      (readLayers (withoutFcs frame)).stacked = false → requestOfFrame p (readLayers (withoutFcs frame)) = none →
      exec (.frameArrival dt p frame) s =
        .next
          { (s.elapse dt).setPort p
              { (s.elapse dt).port p with received := satAdd ((s.elapse dt).port p).received 1 } with
            management :=
              { (s.elapse dt).management with
                notRequests := satAdd (s.elapse dt).management.notRequests 1 } }) ∧
    (((s.elapse dt).port p).up = true → formatOk frame = true →
      (readLayers (withoutFcs frame)).destination ≠ (s.elapse dt).station →
      32 ≤ ((s.elapse dt).port (otherPort p)).forwardQueue.length →
      exec (.frameArrival dt p frame) s =
        .next ((s.elapse dt).setPort p
          { (s.elapse dt).port p with
            received := satAdd ((s.elapse dt).port p).received 1
            queueFullDrops := satAdd ((s.elapse dt).port p).queueFullDrops 1 })) ∧
    ((s.elapse dt).net.up = true → formatOk frame = true →
      (readLayers (withoutFcs frame)).destination ≠ (s.elapse dt).station →
      (s.elapse dt).cell.forwardQueue.length < 32 → (s.elapse dt).cell.up = false →
      exec (.frameArrival dt .net frame) s =
        .next
          { s.elapse dt with
            net := { (s.elapse dt).net with received := satAdd (s.elapse dt).net.received 1 }
            cell := { (s.elapse dt).cell with linkDrops := satAdd (s.elapse dt).cell.linkDrops 1 } })

/-! ### Decisions -/

/-- In PASSIVE every downstream frame that reaches its classification is placed unchanged in the CELL forward queue,
whatever its decision, with no violation and no Guard Drop (R45, R51, R17). Held beside the same frame in ENFORCE, under
an active bank that passes its checks, the same decision counter goes up (R54) and the first record made is the
counterpart of that in ENFORCE, with WOULD_DENY TRACK_FULL last (R52); a clamp whose checksum ENFORCE finds bad is left
out (log entry 20). The model's choices: that the LOAD_STARTED of a LOAD_BEGIN without room stands before its WOULD_DENY
TRACK_FULL (log entry 21), and that this record's forwarded value is the requested value (log entry 35). -/
def Obligations.PassivePlacesEveryFrameUnchanged : Prop :=
  ∀ (dt : Nat) (frame : List Byte) (s : State), (s.elapse dt).mode = .passive → ReachesRules frame (s.elapse dt) →
    ∃ t, exec (.frameArrival dt .net frame) s = .next t ∧ t.cell = placeForward (s.elapse dt).cell frame ∧
      t.guards = (s.elapse dt).guards ∧ t.net.guardDrops = (s.elapse dt).net.guardDrops ∧
      ∀ t', exec (.frameArrival dt .net frame) { s with mode := .enforce } = .next t' → BankConsistent (s.elapse dt) →
        (∀ c, commandOf (s.elapse dt).activeBank frame = some c →
          checksumFails { s.elapse dt with mode := .enforce } c (readLayers (withoutFcs frame)) = false) →
        t.decisions = t'.decisions ∧
        ((s.elapse dt).events.length ≤ 60 →
          (t'.events = (s.elapse dt).events → t.events = (s.elapse dt).events) ∧
          ∀ e rest, t'.events = (s.elapse dt).events ++ e :: rest →
            (e.kind ≠ .trackFull → ∃ rest', t.events = (s.elapse dt).events ++ counterpart e :: rest') ∧
            (e.kind = .trackFull →
              t.events.getLast? =
                some { e with kind := .wouldDeny, reason := some .trackFull, forwarded := e.requested }))

/-- The kinds of frames under a bank that passes its checks (R13 to R16), and in ENFORCE the FRAME_ARRIVAL of the downstream
frames that no chain decides: TRANSIT is placed (R18); UNGUARDED is placed or denied by Unknown Traffic (R50, R54);
BROADCAST_COMMAND is dropped (R17); a MALFORMED command is dropped as a violation and a Guard Drop (R28, R51; log entry
19 for the object of a Profile with Object Width 0). -/
def Obligations.FramesWithoutAChain : Prop :=
  (∀ (station : MacAddress) (b : Bank) (l : Layers), firstFailure station b = none →
    (∀ (slot : Fin 16) (i : Fin 8), slotUsed b slot = true → b.controllers[slot].profile.toNat = i.val →
      (b.controllers[slot].address = l.destination →
        (Recognised b.profiles[i] true l ∨ FragmentCase b.profiles[i] l →
          classifyDownstream b l = .command slot i b.profiles[i]) ∧
        (¬ (Recognised b.profiles[i] true l ∨ FragmentCase b.profiles[i] l) →
          classifyDownstream b l = .unguarded slot)) ∧
      (b.controllers[slot].address = l.source →
        (Recognised b.profiles[i] false l → classifyUpstream b l = .response slot b.profiles[i]) ∧
        (¬ Recognised b.profiles[i] false l → classifyUpstream b l = .unguarded slot))) ∧
    ((∀ slot : Fin 16, slotUsed b slot = true → b.controllers[slot].address ≠ l.source) →
      classifyUpstream b l = .transit) ∧
    ((∀ slot : Fin 16, slotUsed b slot = true → b.controllers[slot].address ≠ l.destination) →
      ∀ guarded : Prop,
        (guarded ↔ isGroup l.destination = true ∧ ∃ (slot : Fin 16) (i : Fin 8), slotUsed b slot = true ∧
          b.controllers[slot].profile.toNat = i.val ∧ Recognised b.profiles[i] true l ∧
          ∀ code, readCode b.profiles[i] (protocolPayload b.profiles[i] l).bytes = some code →
            classOfCode b i code ≠ .read) →
        (guarded → classifyDownstream b l = .broadcastCommand) ∧
        (¬ guarded → classifyDownstream b l = .transit))) ∧
  (∀ (station : MacAddress) (b : Bank) (i : Fin 8) (code : Nat), firstFailure station b = none →
    isUsed b.profiles[i].used = true →
    (∀ e : Fin 32, isUsed b.codeMap[codeMapIndex i e].used = true → b.codeMap[codeMapIndex i e].code.toNat = code →
      classOfByte b.codeMap[codeMapIndex i e].cls = some (classOfCode b i code)) ∧
    ((∀ e : Fin 32, isUsed b.codeMap[codeMapIndex i e].used = true →
        b.codeMap[codeMapIndex i e].code.toNat ≠ code) →
      classOfByte b.profiles[i].unlistedClass = some (classOfCode b i code))) ∧
  ∀ (dt : Nat) (frame : List Byte) (s : State), (s.elapse dt).mode = .enforce → ReachesRules frame (s.elapse dt) →
    (classifyDownstream (s.elapse dt).activeBank (readLayers (withoutFcs frame)) = .transit →
      exec (.frameArrival dt .net frame) s =
        .next
          { s.elapse dt with
            net := { (s.elapse dt).net with received := satAdd (s.elapse dt).net.received 1 }
            cell := placeForward (s.elapse dt).cell frame }) ∧
    (classifyDownstream (s.elapse dt).activeBank (readLayers (withoutFcs frame)) = .broadcastCommand →
      exec (.frameArrival dt .net frame) s =
        .next (noticeAfter (s.elapse dt) (State.record
          { s.elapse dt with
            net :=
              { (s.elapse dt).net with
                received := satAdd (s.elapse dt).net.received 1
                guardDrops := satAdd (s.elapse dt).net.guardDrops 1 } }
          { time := (s.elapse dt).clock, kind := .malformed, reason := some .broadcastCommand,
            source := some (readLayers (withoutFcs frame)).source }))) ∧
    (∀ (slot : Fin 16) (i : Fin 8) (p : Profile) (reason : Reason) (object : Option (BitVec 32)),
      classifyDownstream (s.elapse dt).activeBank (readLayers (withoutFcs frame)) = .command slot i p →
      MalformedAs (s.elapse dt).activeBank i p (readLayers (withoutFcs frame)) reason object →
      exec (.frameArrival dt .net frame) s =
        .next (deniedFrame (s.elapse dt) slot true true
          { time := (s.elapse dt).clock, kind := .malformed, reason := some reason, slot := some slot,
            source := some (readLayers (withoutFcs frame)).source, object := object })) ∧
    ∀ slot, classifyDownstream (s.elapse dt).activeBank (readLayers (withoutFcs frame)) = .unguarded slot →
      exec (.frameArrival dt .net frame) s =
        if (s.elapse dt).activeBank.controllers[slot].unknownTraffic = 1 then
          .next (noticeAfter (s.elapse dt) (State.record
            { s.elapse dt with
              net := { (s.elapse dt).net with received := satAdd (s.elapse dt).net.received 1 }
              decisions := counted (s.elapse dt) slot (fun k => { k with denied := satAdd k.denied 1 }) }
            { time := (s.elapse dt).clock, kind := .denied, reason := some .unguarded, slot := some slot,
              source := some (readLayers (withoutFcs frame)).source }))
        else
          .next
            { s.elapse dt with
              net := { (s.elapse dt).net with received := satAdd (s.elapse dt).net.received 1 }
              decisions := counted (s.elapse dt) slot (fun k => { k with permitted := satAdd k.permitted 1 })
              cell := placeForward (s.elapse dt).cell frame }

/-- The deciding rule is the first that matches in the controller's chain and then the common chain (R39, R40). In ENFORCE a
COMMAND is dropped and counted in Denied: to a FROZEN controller, if it is no READ, as DENIED FROZEN, no violation
(R46); a READ apart, with no rule that matches, as DENIED DEFAULT (R41); under a DENY rule as DENIED RULE (R42), and
under a WINDOW rule outside a window as DENIED NO_WINDOW (R43), the last three charged as violations (R51, R53, R100). -/
def Obligations.FrozenAndUnruledCommandsAreDenied : Prop :=
  (∀ (station : MacAddress) (b : Bank) (c : Command), firstFailure station b = none → slotUsed b c.slot = true →
    ∃ own common : List (Fin 256), ChainFrom b b.controllers[c.slot].chainHead own ∧ ChainFrom b b.commonHead common ∧
      (∀ k, decidingRule b c = some k ↔
        ∃ before after, own ++ common = before ++ k :: after ∧ Matches b c k ∧ ∀ i ∈ before, ¬ Matches b c i) ∧
      (decidingRule b c = none ↔ ∀ i ∈ own ++ common, ¬ Matches b c i)) ∧
  ∀ (dt : Nat) (frame : List Byte) (s : State) (c : Command), (s.elapse dt).mode = .enforce →
    ReachesRules frame (s.elapse dt) → commandOf (s.elapse dt).activeBank frame = some c →
    (c.cls ≠ .read → guardOf (s.elapse dt) c.slot = some .frozen →
      exec (.frameArrival dt .net frame) s =
        .next (deniedFrame (s.elapse dt) c.slot false false
          (denialOf (s.elapse dt) c .denied (some .frozen) none))) ∧
    (c.cls ≠ .read → guardOf (s.elapse dt) c.slot ≠ some .frozen → decidingRule (s.elapse dt).activeBank c = none →
      exec (.frameArrival dt .net frame) s =
        .next (deniedFrame (s.elapse dt) c.slot true false
          (denialOf (s.elapse dt) c .denied (some .default) none))) ∧
    ∀ k, c.cls = .read ∨ guardOf (s.elapse dt) c.slot ≠ some .frozen →
      decidingRule (s.elapse dt).activeBank c = some k →
      ((s.elapse dt).activeBank.rules[k].action = 1 →
        exec (.frameArrival dt .net frame) s =
          .next (deniedFrame (s.elapse dt) c.slot true false
            (denialOf (s.elapse dt) c .denied (some .rule) (some k)))) ∧
      ((s.elapse dt).activeBank.rules[k].action = 2 → inWindow (s.elapse dt) c.slot = false →
        exec (.frameArrival dt .net frame) s =
          .next (deniedFrame (s.elapse dt) c.slot true false
            (denialOf (s.elapse dt) c .denied (some .noWindow) (some k))))

/-- Commands in ENFORCE that are not denied by their rules. A WRITE_VALUE under a BOUND rule (R29, R44, R51, R52, R67, R71,
R74): too short for the rule's type it is MALFORMED SHORT; PERMIT places it unchanged and tracks the requested value;
CLAMP, its checksum sound, places it rewritten, recorded, and tracks the admissible value; a bad checksum is MALFORMED
BAD_CHECKSUM; a refusal is a violation; without room for its entry it is denied TRACK_FULL. A command permitted with its
value unread (R42, R43) is placed unchanged and tracked by its class, a READ when it is covered (R48, R49); without room
it is denied TRACK_FULL, but a READ goes untracked. -/
def Obligations.BoundedWritesAreTrackedAsTheyLeave : Prop :=
  (∀ (dt : Nat) (frame : List Byte) (s : State) (c : Command), (s.elapse dt).mode = .enforce →
    ReachesRules frame (s.elapse dt) → commandOf (s.elapse dt).activeBank frame = some c →
    c.cls = .read ∨ guardOf (s.elapse dt) c.slot ≠ some .frozen → PermittedUnread (s.elapse dt) c →
    isLoadClass c.cls = false ∨ c.controller.imageCheck ≠ 1 →
    (Finds (s.elapse dt) (plainEntry (s.elapse dt) c) →
      exec (.frameArrival dt .net frame) s =
        .next (permittedFrame (s.elapse dt) c (plainEntry (s.elapse dt) c) frame)) ∧
    (¬ Finds (s.elapse dt) (plainEntry (s.elapse dt) c) →
      exec (.frameArrival dt .net frame) s =
        .next (if c.cls = .read then permittedFrame (s.elapse dt) c none frame
          else
            deniedFrame (s.elapse dt) c.slot false false
              (denialOf (s.elapse dt) c .trackFull none (decidingRule (s.elapse dt).activeBank c))))) ∧
  ∀ (dt : Nat) (frame : List Byte) (s : State) (c : Command) (k : Fin 256) (vt : ValueType),
    (s.elapse dt).mode = .enforce → ReachesRules frame (s.elapse dt) →
    commandOf (s.elapse dt).activeBank frame = some c → c.cls = .writeValue →
    guardOf (s.elapse dt) c.slot ≠ some .frozen → decidingRule (s.elapse dt).activeBank c = some k →
    (s.elapse dt).activeBank.rules[k].action = 3 →
    ¬ ((s.elapse dt).activeBank.rules[k].freeInWindow = 1 ∧ inWindow (s.elapse dt) c.slot = true) →
    valueTypeOfByte (s.elapse dt).activeBank.rules[k].valueType = some vt →
    (readValue c.profile c.payload.bytes c.profile.valueOffset vt = none →
      exec (.frameArrival dt .net frame) s =
        .next (deniedFrame (s.elapse dt) c.slot true true
          (denialOf (s.elapse dt) c .malformed (some .short) (some k)))) ∧
    ∀ (v : Int) (outcome : BoundOutcome) (entry : Int → Option Outstanding),
      readValue c.profile c.payload.bytes c.profile.valueOffset vt = some v →
      outcome =
        boundOutcome (boundRuleOf vt (s.elapse dt).activeBank.rules[k]) (reference (s.elapse dt) c.slot c.object) v →
      entry = (fun f => c.tag.map (fun tag =>
        { slot := c.slot, address := c.controller.address, tag := tag, kind := .write, object := some c.object,
          forwarded := some f, valueType := some vt, deadline := (s.elapse dt).clock + responseTimeoutMs c.profile })) →
      (outcome = .permit → Finds (s.elapse dt) (entry v) →
        exec (.frameArrival dt .net frame) s = .next (permittedFrame (s.elapse dt) c (entry v) frame)) ∧
      (∀ q, outcome = .clamp q → checksumFails (s.elapse dt) c (readLayers (withoutFcs frame)) = false →
        Finds (s.elapse dt) (entry q) →
        exec (.frameArrival dt .net frame) s =
          .next (noticeAfter (s.elapse dt) (State.record
            { s.elapse dt with
              net := { (s.elapse dt).net with received := satAdd (s.elapse dt).net.received 1 }
              decisions := counted (s.elapse dt) c.slot (fun x => { x with clamped := satAdd x.clamped 1 })
              outstanding := entered (s.elapse dt) (entry q)
              cell := placeForward (s.elapse dt).cell (withFcs (rewriteFrame c (withoutFcs frame) vt q)) }
            { time := (s.elapse dt).clock, kind := .valueClamped, slot := some c.slot, rule := some k,
              source := some c.source, object := some c.object, requested := some v, forwarded := some q }))) ∧
      (∀ q, outcome = .clamp q → checksumFails (s.elapse dt) c (readLayers (withoutFcs frame)) = true →
        exec (.frameArrival dt .net frame) s =
          .next (deniedFrame (s.elapse dt) c.slot true true
            { time := (s.elapse dt).clock, kind := .malformed, reason := some .badChecksum, slot := some c.slot,
              rule := some k, source := some c.source, object := some c.object, requested := some v })) ∧
      (∀ f,
        (outcome = .permit ∧ f = v) ∨
          (outcome = .clamp f ∧ checksumFails (s.elapse dt) c (readLayers (withoutFcs frame)) = false) →
        ¬ Finds (s.elapse dt) (entry f) →
        exec (.frameArrival dt .net frame) s =
          .next (deniedFrame (s.elapse dt) c.slot false false
            { time := (s.elapse dt).clock, kind := .trackFull, slot := some c.slot, rule := some k,
              source := some c.source, object := some c.object, requested := some v, forwarded := some f })) ∧
      ∀ reason,
        (outcome = .outOfBand ∧ reason = .outOfBand) ∨ (outcome = .noAdmissible ∧ reason = .noAdmissible) →
        exec (.frameArrival dt .net frame) s =
          .next (noticeAfter (s.elapse dt) (State.record
            { s.elapse dt with
              net := { (s.elapse dt).net with received := satAdd (s.elapse dt).net.received 1 }
              decisions := counted (s.elapse dt) c.slot (fun x => { x with refused := satAdd x.refused 1 })
              guards := oneViolation (s.elapse dt) c.slot }
            { time := (s.elapse dt).clock, kind := .valueRefused, reason := some reason, slot := some c.slot,
              rule := some k, source := some c.source, object := some c.object, requested := some v }))

/-- Load commands permitted by their rules, to a slot with Image Check ON in ENFORCE. A LOAD_BEGIN makes a record in its
controller's Download Slot or the lowest FREE one, restarting an old record, or is denied LOAD_NO_SLOT (R114). A segment
from the record's Source: the next number is folded, a repeat of the last one with the same length and CRC restarts the
Idle Deadline alone (R116, R117); a Byte Count that would pass FFFFFFFFH, another number, or a repeat with other
contents aborts the record (R116 to R118). An activation of an approved image makes the record ACTIVATING, of another
frees it (R120). From another source either aborts it (R115), and without a LOADING record it is an orphan (R119). What
passes is placed and tracked, and without room denied TRACK_FULL with every record as it was (R47); what is refused is
dropped, all but LOAD_NO_SLOT and TRACK_FULL as violations (R113). -/
def Obligations.SegmentsAreFoldedInOrder : Prop :=
  ∀ (dt : Nat) (frame : List Byte) (s : State) (c : Command), (s.elapse dt).mode = .enforce →
    ReachesRules frame (s.elapse dt) → commandOf (s.elapse dt).activeBank frame = some c → isLoadClass c.cls = true →
    c.controller.imageCheck = 1 → guardOf (s.elapse dt) c.slot ≠ some .frozen → PermittedUnread (s.elapse dt) c →
    OneLoadEach (s.elapse dt) →
    -- LOAD_BEGIN
    (c.cls = .loadBegin →
      (∀ d : Fin 4,
        (∃ r, (s.elapse dt).loads[d] = some r ∧ r.controller = c.slot) ∨
          ((s.elapse dt).loads[d] = none ∧ (∀ e < d, (s.elapse dt).loads[e] ≠ none) ∧
            ∀ (e : Fin 4) (r : Download), (s.elapse dt).loads[e] = some r → r.controller ≠ c.slot) →
        exec (.frameArrival dt .net frame) s =
          .next (if hasRoom (s.elapse dt) c.slot (c.tag.getD 0) = true ∨ c.tag = none then
              noticeAfter (s.elapse dt) (addRecords
                { permittedFrame (s.elapse dt) c (loadEntry (s.elapse dt) c .begin (some d)) frame with
                  loads := (s.elapse dt).loads.set d (some
                    { controller := c.slot, state := .loading, source := c.source,
                      nextExpected := c.profile.firstSegment.setWidth 16, lastNumber := none, lastLength := 0,
                      lastSegmentCrc := 0, runningCrc := 0xFFFFFFFF, byteCount := 0, retryAllowance := 3,
                      idleDeadline := (s.elapse dt).clock + loadIdleMs c.profile }) }
                ((match (s.elapse dt).loads[d] with
                  | some r =>
                    [{ time := (s.elapse dt).clock, kind := .loadAborted, reason := some .restarted,
                       slot := some c.slot, source := some r.source, extra := some r.byteCount.toNat }]
                  | none => []) ++
                  [{ time := (s.elapse dt).clock, kind := .loadStarted, slot := some c.slot, source := some c.source }]))
            else
              deniedFrame (s.elapse dt) c.slot false false
                (denialOf (s.elapse dt) c .trackFull none (decidingRule (s.elapse dt).activeBank c)))) ∧
      ((∀ d : Fin 4, ∃ r, (s.elapse dt).loads[d] = some r ∧ r.controller ≠ c.slot) →
        exec (.frameArrival dt .net frame) s =
          .next (deniedFrame (s.elapse dt) c.slot false false
            (loadRefusal (s.elapse dt) c .loadNoSlot none none)))) ∧
    -- LOAD_SEGMENT and LOAD_ACTIVATE without a LOADING record
    (c.cls ≠ .loadBegin →
      (∀ (d : Fin 4) (r : Download), (s.elapse dt).loads[d] = some r → r.controller = c.slot → r.state ≠ .loading) →
      exec (.frameArrival dt .net frame) s =
        .next (deniedFrame (s.elapse dt) c.slot true false (loadRefusal (s.elapse dt) c .loadOrphan none none))) ∧
    ∀ (d : Fin 4) (r : Download), c.cls ≠ .loadBegin → (s.elapse dt).loads[d] = some r → r.controller = c.slot →
      r.state = .loading →
      -- what passes: the record it leaves
      (∀ q : Download, r.source = c.source →
        (∃ g, c.cls = .loadSegment ∧ c.segment = some g ∧
          ((g.number = r.nextExpected ∧ r.byteCount.toNat + g.length.toNat ≤ 0xFFFFFFFF ∧
              q =
                { r with
                  runningCrc := crcFold r.runningCrc g.data
                  byteCount := r.byteCount + g.length.setWidth 32
                  lastNumber := some g.number
                  lastLength := g.length
                  lastSegmentCrc := crc32 g.data
                  nextExpected := r.nextExpected + 1
                  idleDeadline := (s.elapse dt).clock + loadIdleMs c.profile }) ∨
            (g.number ≠ r.nextExpected ∧ r.lastNumber = some g.number ∧ g.length = r.lastLength ∧
              crc32 g.data = r.lastSegmentCrc ∧
              q = { r with idleDeadline := (s.elapse dt).clock + loadIdleMs c.profile }))) ∨
          (c.cls = .loadActivate ∧ ∃ k, matchImage (s.elapse dt).activeBank c.slot r = some k ∧
            q =
              { r with
                state := .activating k
                idleDeadline :=
                  (s.elapse dt).clock + responseTimeoutMs c.profile + loadIdleMs c.profile }) →
        exec (.frameArrival dt .net frame) s =
          .next (if hasRoom (s.elapse dt) c.slot (c.tag.getD 0) = true ∨ c.tag = none then
              { permittedFrame (s.elapse dt) c
                  (loadEntry (s.elapse dt) c (if c.cls = .loadSegment then .segment else .activate) (some d)) frame with
                loads := (s.elapse dt).loads.set d (some q) }
            else
              deniedFrame (s.elapse dt) c.slot false false
                (denialOf (s.elapse dt) c .trackFull none (decidingRule (s.elapse dt).activeBank c)))) ∧
      -- what is refused: the record is gone
      (∀ kind reason,
        (r.source ≠ c.source ∧ kind = .loadAborted ∧ reason = some .sourceChanged) ∨
          (r.source = c.source ∧ c.cls = .loadActivate ∧ matchImage (s.elapse dt).activeBank c.slot r = none ∧
            kind = .loadRejected ∧ reason = none) ∨
          (r.source = c.source ∧ c.cls = .loadSegment ∧ ∃ g, c.segment = some g ∧ kind = .loadAborted ∧
            ((g.number = r.nextExpected ∧ 0xFFFFFFFF < r.byteCount.toNat + g.length.toNat ∧
                reason = some .tooLong) ∨
              (g.number ≠ r.nextExpected ∧ r.lastNumber ≠ some g.number ∧ reason = some .outOfOrder) ∨
              (g.number ≠ r.nextExpected ∧ r.lastNumber = some g.number ∧
                (g.length ≠ r.lastLength ∨ crc32 g.data ≠ r.lastSegmentCrc) ∧ reason = some .substituted))) →
        exec (.frameArrival dt .net frame) s =
          .next (deniedFrame { s.elapse dt with loads := (s.elapse dt).loads.set d none } c.slot true false
            (loadRefusal (s.elapse dt) c kind reason (some r.byteCount.toNat)))) ∧
      -- the image that matches is the first of those that do
      ∀ k, matchImage (s.elapse dt).activeBank c.slot r = some k ↔
        (isUsed (s.elapse dt).activeBank.images[k].used = true ∧
          (s.elapse dt).activeBank.images[k].mask.getLsbD c.slot = true ∧
          (s.elapse dt).activeBank.images[k].length = r.byteCount ∧
          (s.elapse dt).activeBank.images[k].crc = ~~~ r.runningCrc) ∧
        ∀ j < k, ¬ (isUsed (s.elapse dt).activeBank.images[j].used = true ∧
          (s.elapse dt).activeBank.images[j].mask.getLsbD c.slot = true ∧
          (s.elapse dt).activeBank.images[j].length = r.byteCount ∧
          (s.elapse dt).activeBank.images[j].crc = ~~~ r.runningCrc)

/-- In ENFORCE a LOAD_ACTIVATE reaches a controller with Image Check ON only if its record's byte count and CRC equal a used
Approved Image entry whose mask includes that controller (R120). -/
def Obligations.ActivationNeedsAnApprovedImage : Prop :=
  ∀ (dt : Nat) (frame : List Byte) (s t : State) (c : Command), (s.elapse dt).mode = .enforce →
    ReachesRules frame (s.elapse dt) → commandOf (s.elapse dt).activeBank frame = some c → c.cls = .loadActivate →
    c.controller.imageCheck = 1 → exec (.frameArrival dt .net frame) s = .next t →
    NotPlaced (s.elapse dt) t ∨
    ∃ (d : Fin 4) (r : Download) (k : Fin 32), (s.elapse dt).loads[d] = some r ∧ r.controller = c.slot ∧
      r.state = .loading ∧ r.source = c.source ∧
      isUsed (s.elapse dt).activeBank.images[k].used = true ∧
      (s.elapse dt).activeBank.images[k].mask.getLsbD c.slot = true ∧
      (s.elapse dt).activeBank.images[k].length = r.byteCount ∧
      (s.elapse dt).activeBank.images[k].crc = ~~~ r.runningCrc ∧
      ∃ q, t.loads[d] = some q ∧ q.state = .activating k

/-- The value of the Value Bound Unit (R61 to R65): it lies in the band and on the grid, no admissible point is nearer to the
clamped request, ties go toward Low; there is none only when the band holds no grid point; and the outcome compares it
with the requested value. -/
def Obligations.BoundGivesTheNearestGridPoint : Prop :=
  ∀ (r : BoundRule) (reference : Option Int) (v a b : Int), boundBand r reference = (a, b) →
    (∀ q, admissible r reference v = some q →
      (a ≤ q ∧ q ≤ b ∧ r.low ≤ q ∧ q ≤ r.high) ∧ (2 ≤ r.grid → (r.grid : Int) ∣ q - r.low) ∧
      (∀ ref, reference = some ref → 0 < r.step → ref - r.step ≤ q ∧ q ≤ ref + r.step) ∧
      ∀ x : Int, a ≤ x → x ≤ b → (2 ≤ r.grid → (r.grid : Int) ∣ x - r.low) →
        |q - min (max v a) b| ≤ |x - min (max v a) b| ∧
        (|q - min (max v a) b| = |x - min (max v a) b| → q ≤ x)) ∧
    (admissible r reference v = none →
      ∀ x : Int, a ≤ x → x ≤ b → ¬ (2 ≤ r.grid → (r.grid : Int) ∣ x - r.low)) ∧
    boundOutcome r reference v =
      match admissible r reference v with
      | none => .noAdmissible
      | some q => if q = v then .permit else if r.refuse = true then .outOfBand else .clamp q

/-- A number of a Value Type is read back from the bytes it is written as, in both byte orders (R59, R68). -/
def Obligations.ValueBytesRoundTrip : Prop :=
  ∀ (p : Profile) (t : ValueType) (q : Int), typeMin t ≤ q → q ≤ typeMax t →
    (encodeValue p t q).length = typeWidth t ∧ decodeValue p t (encodeValue p t q) = q

/-- In ENFORCE a command under a BOUND rule, not free in a window, leaves the part only with a value inside [Low, High],
and within Step of the reference when there is one (R61 to R68); the frame keeps its length. A rewrite replaces the
bytes of the Value field with those of the admissible value, and, for UDP kind with a received checksum other than
0000H, those of the checksum with one that passes the check of R70 and is not 0000H; every other byte, and a checksum of
0000H, stays as received (R68, R69, R72). The received checksum fails in ENFORCE when it is not 0000H and the sum of R70
is not FFFFH. -/
def Obligations.EnforcedWritesStayInTheBand : Prop :=
  (∀ (b : Bank) (frame f g : List Byte) (c : Command) (vt : ValueType) (v q : Int),
    commandOf b frame = some c → readValue c.profile c.payload.bytes c.profile.valueOffset vt = some v →
    typeMin vt ≤ q → q ≤ typeMax vt → f = withoutFcs frame → g = rewriteFrame c f vt q →
    g.length = f.length ∧
    decodeValue c.profile vt (slice g (c.payload.start + c.profile.valueOffset.toNat) (typeWidth vt)) = q ∧
    (∀ k, k < c.payload.start + c.profile.valueOffset.toNat ∨
        c.payload.start + c.profile.valueOffset.toNat + typeWidth vt ≤ k →
      ¬ (c.profile.kind = 1 ∧ (∃ u, readUdp (readLayers f) = some u ∧ u.checksum ≠ 0) ∧
        c.payload.start ≤ k + 2 ∧ k < c.payload.start) →
      byteAt g k = byteAt f k) ∧
    (c.profile.kind = 1 → ∃ u w, readUdp (readLayers f) = some u ∧ readUdp (readLayers g) = some w ∧
      (u.checksum = 0 → w.checksum = 0) ∧ (u.checksum ≠ 0 → w.checksum ≠ 0 ∧ Sound w))) ∧
  (∀ (s : State) (c : Command) (l : Layers), checksumFails s c l = true ↔
    s.mode = .enforce ∧ c.profile.kind = 1 ∧ ∃ u, readUdp l = some u ∧ u.checksum ≠ 0 ∧ ¬ Sound u) ∧
  ∀ (dt : Nat) (frame : List Byte) (s t : State) (c : Command) (k : Fin 256) (vt : ValueType),
    (s.elapse dt).mode = .enforce → ReachesRules frame (s.elapse dt) →
    commandOf (s.elapse dt).activeBank frame = some c → decidingRule (s.elapse dt).activeBank c = some k →
    (s.elapse dt).activeBank.rules[k].action = 3 →
    ¬ ((s.elapse dt).activeBank.rules[k].freeInWindow = 1 ∧ inWindow (s.elapse dt) c.slot = true) →
    valueTypeOfByte (s.elapse dt).activeBank.rules[k].valueType = some vt →
    typeMin vt ≤ boundNumber vt (s.elapse dt).activeBank.rules[k].low →
    boundNumber vt (s.elapse dt).activeBank.rules[k].high ≤ typeMax vt →
    exec (.frameArrival dt .net frame) s = .next t →
    NotPlaced (s.elapse dt) t ∨
    ∃ (f : List Byte) (v : Int), t.cell = placeForward (s.elapse dt).cell f ∧ f.length = frame.length ∧
      decodeValue c.profile vt (slice (withoutFcs f) (c.payload.start + c.profile.valueOffset.toNat) (typeWidth vt)) =
        v ∧
      boundNumber vt (s.elapse dt).activeBank.rules[k].low ≤ v ∧
      v ≤ boundNumber vt (s.elapse dt).activeBank.rules[k].high ∧
      ∀ ref, reference (s.elapse dt) c.slot c.object = some ref →
        0 < (s.elapse dt).activeBank.rules[k].step.toNat →
        ref - (s.elapse dt).activeBank.rules[k].step.toNat ≤ v ∧ v ≤ ref + (s.elapse dt).activeBank.rules[k].step.toNat

/-! ### Responses and deadlines -/

/-- FRAME_ARRIVAL of an upstream frame: a RESPONSE that matches removes its entry (R77 to R79); a positive answer makes
the forwarded value of a WRITE, or the value read of a READ, the reference (R87, R88); a negative one, or a READ answer
without its whole value, is recorded and leaves the Shadow Store; a load-kind entry reports to its Download Record
(R122). A value written to the Shadow Store moves its key to the most recent end, a new key evicts exactly the least
recently updated entry of 512, and every other key keeps its reference (R87 to R89). A RESPONSE without a tag or an
entry, and every other frame, changes nothing. The frame is placed unchanged in the NET forward queue, after the NOTICE
of the record (log entry 18), or counted in Link Drops while NET is DOWN (R5). -/
def Obligations.ResponsesSettleTheirEntries : Prop :=
  (∀ (s : State) (e : ShadowEntry), s.shadow.length ≤ 512 → (s.shadow.map (fun x => (x.slot, x.object))).Nodup →
    (∀ before x after, s.shadow = before ++ x :: after → (x.slot, x.object) = (e.slot, e.object) →
      shadowInsert s.shadow e = before ++ after ++ [e]) ∧
    ((∀ x ∈ s.shadow, (x.slot, x.object) ≠ (e.slot, e.object)) →
      (s.shadow.length < 512 → shadowInsert s.shadow e = s.shadow ++ [e]) ∧
      ∀ oldest rest, s.shadow = oldest :: rest → s.shadow.length = 512 → shadowInsert s.shadow e = rest ++ [e]) ∧
    ∀ t : State, t.shadow = shadowInsert s.shadow e →
      reference t e.slot e.object = some e.value ∧
      ∀ slot object, (slot, object) ≠ (e.slot, e.object) →
        reference t slot object = reference s slot object ∨
          (reference t slot object = none ∧ s.shadow.length = 512 ∧
            (∀ x ∈ s.shadow, (x.slot, x.object) ≠ (e.slot, e.object)) ∧
            ∃ oldest rest, s.shadow = oldest :: rest ∧ (oldest.slot, oldest.object) = (slot, object))) ∧
  (∀ (dt : Nat) (frame : List Byte) (s : State), ReachesTracker frame (s.elapse dt) →
    (∀ slot p, classifyUpstream (s.elapse dt).activeBank (readLayers (withoutFcs frame)) = .response slot p →
      ∀ tag, readTag p (protocolPayload p (readLayers (withoutFcs frame))).bytes = some tag →
        findEntry (s.elapse dt) slot tag = none) →
    exec (.frameArrival dt .cell frame) s = .next (upstreamPlaced (s.elapse dt) frame)) ∧
  ∀ (dt : Nat) (frame : List Byte) (s : State) (slot : Fin 16) (p : Profile) (tag : BitVec 32) (e : Outstanding)
      (settled : State),
    ReachesTracker frame (s.elapse dt) →
    classifyUpstream (s.elapse dt).activeBank (readLayers (withoutFcs frame)) = .response slot p →
    readTag p (protocolPayload p (readLayers (withoutFcs frame))).bytes = some tag →
    findEntry (s.elapse dt) slot tag = some e →
    settled =
      { s.elapse dt with
        outstanding := (s.elapse dt).outstanding.filter (fun x => !(x.slot == slot && x.tag == tag)) } →
    (∀ v o, responsePositive p (protocolPayload p (readLayers (withoutFcs frame))).bytes = true →
      e.kind = .write → e.forwarded = some v → e.object = some o →
      ∃ t, exec (.frameArrival dt .cell frame) s = .next t ∧ reference t e.slot o = some v ∧
        t = upstreamPlaced
          { settled with
            shadow := shadowInsert (s.elapse dt).shadow ⟨e.slot, o, v, .confirmed, (s.elapse dt).clock⟩ } frame) ∧
    (responsePositive p (protocolPayload p (readLayers (withoutFcs frame))).bytes = true → e.kind = .write →
      e.forwarded = none → exec (.frameArrival dt .cell frame) s = .next (upstreamPlaced settled frame)) ∧
    (∀ vt v o, responsePositive p (protocolPayload p (readLayers (withoutFcs frame))).bytes = true →
      e.kind = .read → e.valueType = some vt → e.object = some o →
      readValue p (protocolPayload p (readLayers (withoutFcs frame))).bytes p.responseValueOffset vt = some v →
      ∃ t, exec (.frameArrival dt .cell frame) s = .next t ∧ reference t e.slot o = some v ∧
        t = upstreamPlaced
          { settled with
            shadow := shadowInsert (s.elapse dt).shadow ⟨e.slot, o, v, .learned, (s.elapse dt).clock⟩ } frame) ∧
    ((responsePositive p (protocolPayload p (readLayers (withoutFcs frame))).bytes = false ∧
          (e.kind = .write ∨ e.kind = .read ∨ e.downloadSlot = none)) ∨
        (e.kind = .read ∧ ∃ vt, e.valueType = some vt ∧
          readValue p (protocolPayload p (readLayers (withoutFcs frame))).bytes p.responseValueOffset vt = none) →
      exec (.frameArrival dt .cell frame) s =
        .next (upstreamPlaced
          (noticeAfter (s.elapse dt) (State.record settled
            { time := (s.elapse dt).clock, kind := .responseNegative, slot := some e.slot, source := some e.address,
              object := e.object, forwarded := e.forwarded, extra := some e.tag.toNat })) frame)) ∧
    (e.kind ≠ .write → e.kind ≠ .read →
      (∀ d, e.downloadSlot = some d →
        exec (.frameArrival dt .cell frame) s =
          .next (upstreamPlaced
            (noticeAfter (s.elapse dt)
              (if responsePositive p (protocolPayload p (readLayers (withoutFcs frame))).bytes = true then
                reportPasses settled e.slot e.kind d
              else reportFails settled e.slot e.kind d)) frame)) ∧
      (e.downloadSlot = none →
        responsePositive p (protocolPayload p (readLayers (withoutFcs frame))).bytes = true →
        exec (.frameArrival dt .cell frame) s = .next (upstreamPlaced settled frame)))

/-- RESPONSE_TIMEOUT of an entry that has reached its Deadline (R80, R122): the entry is removed and RESPONSE_TIMEOUT recorded
with the Deadline as its time; a load-kind entry reports to its Download Record. Before the Deadline, or with no such
entry, only time passes (the model's choice, log entry 3). -/
def Obligations.ResponseTimeoutEndsTheEntry : Prop :=
  ∀ (dt : Nat) (slot : Fin 16) (tag : BitVec 32) (s : State),
    (findEntry (s.elapse dt) slot tag = none ∨
        (∃ e, findEntry (s.elapse dt) slot tag = some e ∧ (s.elapse dt).clock < e.deadline) →
      exec (.responseTimeout dt slot tag) s = .next (s.elapse dt)) ∧
    ∀ e, findEntry (s.elapse dt) slot tag = some e → e.deadline ≤ (s.elapse dt).clock →
      exec (.responseTimeout dt slot tag) s =
        .next (noticeAfter (s.elapse dt)
          (let w := State.record
            { s.elapse dt with
              outstanding := (s.elapse dt).outstanding.filter (fun x => !(x.slot == slot && x.tag == tag)) }
            { time := e.deadline, kind := .responseTimeout, slot := some e.slot, source := some e.address,
              object := e.object, forwarded := e.forwarded, extra := some e.tag.toNat }
          match e.kind, e.downloadSlot with
          | .write, _ => w
          | .read, _ => w
          | _, none => w
          | kind, some d => reportFails w slot kind d))

/-- WINDOW_EXPIRY (R93, R97, R124): a window whose deadline is reached closes with reason EXPIRED, and the slot's LOADING
record is aborted; otherwise only time passes (the model's choice, log entry 3). -/
def Obligations.WindowExpiryClosesTheWindow : Prop :=
  ∀ (dt : Nat) (slot : Fin 16) (s : State), OneLoadEach (s.elapse dt) →
    exec (.windowExpiry dt slot) s =
      .next
        (match guardOf (s.elapse dt) slot with
          | some (.window d) =>
            if d ≤ (s.elapse dt).clock then
              noticeAfter (s.elapse dt) (windowsClosed (s.elapse dt) [slot] .expired none)
            else s.elapse dt
          | some .normal => s.elapse dt
          | some .frozen => s.elapse dt
          | none => s.elapse dt)

/-- CHG_PERMIT_PIN_CHANGE (R98): a level away from the filtered permit begins a 20 ms period, a return to it before the
period's end cancels it, and nothing is recorded and nothing else changes; a period whose 20 ms have passed has its
expiry taken first. The model's choices: in reset the pin alone changes (log entry 11); at the level the pin has, only
time passes (log entry 3). -/
def Obligations.PermitPinStartsAndCancelsThePeriod : Prop :=
  (∀ (dt : Nat) (high : Bool) (s : State),
    (∀ e, (s.elapse dt).permitPeriod = some e → (s.elapse dt).clock < e) →
    exec (.chgPermitPinChange dt high) s =
      .next
        (if (s.elapse dt).chgPermit = high then s.elapse dt
        else
          { s.elapse dt with
            chgPermit := high
            permitPeriod :=
              if (s.elapse dt).resetN = true ∧ high ≠ (s.elapse dt).permit then some ((s.elapse dt).clock + 20)
              else none })) ∧
  ∀ (dt : Nat) (high : Bool) (s w : State), exec (.permitFilterExpiry dt) s = .next w →
    exec (.chgPermitPinChange dt high) s =
      .next
        (if (s.elapse dt).chgPermit = high then s.elapse dt
        else
          { w with
            chgPermit := high
            permitPeriod := if w.resetN = true ∧ high ≠ w.permit then some (w.clock + 20) else none })

/-- PERMIT_FILTER_EXPIRY at the end of a period (R98, R99): the filtered permit takes the pin's level; taking DEASSERTED
closes every open window with reason PERMIT, in ascending slot order. With no period ended only time passes (the model's
choice, log entry 3). -/
def Obligations.PermitLossClosesEveryWindow : Prop :=
  ∀ (dt : Nat) (s : State), OneLoadEach (s.elapse dt) →
    ((∀ e, (s.elapse dt).permitPeriod = some e → (s.elapse dt).clock < e) →
      exec (.permitFilterExpiry dt) s = .next (s.elapse dt)) ∧
    ∀ e, (s.elapse dt).permitPeriod = some e → e ≤ (s.elapse dt).clock →
      exec (.permitFilterExpiry dt) s =
        .next
          (if (s.elapse dt).chgPermit = true then { s.elapse dt with permit := true, permitPeriod := none }
          else
            noticeAfter (s.elapse dt)
              { windowsClosed (s.elapse dt) ((List.finRange 16).filter (inWindow (s.elapse dt))) .permit none with
                permit := false
                permitPeriod := none })

/-- The score of a slot at an interval expiry: its new history and the average of the most recent counts (R101, R102). -/
def Sys2Proof.Claims.newAverage (u : State) (i : Fin 16) (g : SlotGuard) : Nat :=
  (((g.history.drop 1 ++ [g.intervalCount]).drop
    ((g.history.drop 1 ++ [g.intervalCount]).length - u.activeBank.controllers[i].scoreWindow.toNat)).map
      BitVec.toNat).sum / u.activeBank.controllers[i].scoreWindow.toNat

/-- A slot that an interval expiry freezes (R102, R103). -/
def Sys2Proof.Claims.freezes (u : State) (i : Fin 16) : Bool :=
  match u.guards[i] with
  | some g =>
    slotUsed u.activeBank i && decide (g.state ≠ .frozen) &&
      decide (0 < u.activeBank.controllers[i].freezeThreshold.toNat) &&
      decide (u.activeBank.controllers[i].freezeThreshold.toNat ≤ newAverage u i g)
  | none => false

/-- The average of a slot that has a guard. -/
def Sys2Proof.Claims.averageOf (u : State) (i : Fin 16) : Nat :=
  match u.guards[i] with
  | some g => newAverage u i g
  | none => 0

/-- INTERVAL_EXPIRY (R101 to R104, R106): every used slot that is not FROZEN is scored, those that meet their threshold are
frozen with their window closed first, ALERT follows, and the next expiry is 1000 ms later. With no expiry due only time
passes (the model's choice, log entry 3). -/
def Obligations.IntervalExpiryScoresEverySlot : Prop :=
  ∀ (dt : Nat) (s : State), OneLoadEach (s.elapse dt) →
    ((∀ e, (s.elapse dt).intervalNext = some e → (s.elapse dt).clock < e) →
      exec (.intervalExpiry dt) s = .next (s.elapse dt)) ∧
    ∀ e, (s.elapse dt).intervalNext = some e → e ≤ (s.elapse dt).clock →
      exec (.intervalExpiry dt) s =
        .next (noticeAfter (s.elapse dt) (addRecords
          { s.elapse dt with
            intervalNext := some (e + 1000)
            alert := (s.elapse dt).alert || (List.finRange 16).any (freezes (s.elapse dt))
            guards := Vector.ofFn (fun i =>
              if slotUsed (s.elapse dt).activeBank i then
                (s.elapse dt).guards[i].map (fun g =>
                  if g.state = .frozen then g
                  else
                    { state := if freezes (s.elapse dt) i then .frozen else g.state
                      intervalCount := 0
                      history := g.history.drop 1 ++ [g.intervalCount]
                      lastAverage := newAverage (s.elapse dt) i g })
              else (s.elapse dt).guards[i])
            loads := loadsWithout (s.elapse dt)
              ((List.finRange 16).filter (fun i => freezes (s.elapse dt) i && inWindow (s.elapse dt) i)) }
          (((List.finRange 16).filter (freezes (s.elapse dt))).flatMap (fun i =>
            (if inWindow (s.elapse dt) i then
              closedRecord (s.elapse dt) .frozen none i :: windowAborts (s.elapse dt) i else []) ++
            [{ time := (s.elapse dt).clock, kind := .frozen, slot := some i,
               extra := some (averageOf (s.elapse dt) i) }]))))

/-- IDLE_EXPIRY (R123): a Download Record whose Idle Deadline is reached is aborted with reason IDLE; otherwise only time
passes (the model's choice, log entry 3). -/
def Obligations.IdleExpiryAbortsTheRecord : Prop :=
  ∀ (dt : Nat) (d : Fin 4) (s : State),
    ((∀ r, (s.elapse dt).loads[d] = some r → (s.elapse dt).clock < r.idleDeadline) →
      exec (.idleExpiry dt d) s = .next (s.elapse dt)) ∧
    ∀ r, (s.elapse dt).loads[d] = some r → r.idleDeadline ≤ (s.elapse dt).clock →
      exec (.idleExpiry dt d) s =
        .next (noticeAfter (s.elapse dt) (State.record
          { s.elapse dt with loads := (s.elapse dt).loads.set d none }
          { time := (s.elapse dt).clock, kind := .loadAborted, reason := some .idle, slot := some r.controller,
            source := some r.source, extra := some r.byteCount.toNat }))

/-- LOCKOUT_END (R150): the lockout ends when the clock reaches its end time, recording nothing; before it, or with no
lockout, only time passes (the model's choice, log entry 3). -/
def Obligations.LockoutEndLiftsTheLockout : Prop :=
  ∀ (dt : Nat) (s : State),
    exec (.lockoutEnd dt) s =
      .next
        (match (s.elapse dt).lockoutEnd with
          | some e => if e ≤ (s.elapse dt).clock then { s.elapse dt with lockoutEnd := none } else s.elapse dt
          | none => s.elapse dt)

/-! ### Requests -/

/-- A request row has the effect of the arrival of the frame that carries its request, whatever the state (R4, R145); what
the row carries is the model's choice of log entry 16, and the frame's FCS that of log entry 10. -/
def Obligations.RequestRowIsItsFramesArrival : Prop :=
  ∀ (code : Byte) (dt : Nat) (r : Request) (i : Instr) (s : State), requestRow code dt r = some i → r.tagOk = true →
    exec i s = exec (.frameArrival dt r.port (wireFrame s.station code r)) s

/-- R146: a request refused for its port or source, or without room for its response, is counted and changes nothing else;
one that arrives at a DOWN port changes nothing. -/
def Obligations.UnacceptedRequestsAreOnlyCounted : Prop :=
  ∀ (code : Byte) (dt : Nat) (r : Request) (i : Instr) (s : State), requestRow code dt r = some i →
    (((s.elapse dt).port r.port).up = false → exec i s = .next (s.elapse dt)) ∧
    (((s.elapse dt).port r.port).up = true → 64 ≤ r.frameLength → r.frameLength ≤ 1522 →
      ((r.port = .cell ∧ (s.elapse dt).settings.cellManagement = false) ∨ isGroup r.source = true ∨
          ((s.elapse dt).settings.sources ≠ [] ∧ r.source ∉ (s.elapse dt).settings.sources) →
        exec i s = .next
          { received r (s.elapse dt) with
            management :=
              { (s.elapse dt).management with refused := satAdd (s.elapse dt).management.refused 1 } }) ∧
      ((r.port = .net ∨ (s.elapse dt).settings.cellManagement = true) → isGroup r.source = false →
        (s.elapse dt).settings.sources = [] ∨ r.source ∈ (s.elapse dt).settings.sources →
        4 ≤ ((s.elapse dt).port r.port).replyQueue.length →
        exec i s = .next
          { received r (s.elapse dt) with
            management :=
              { (s.elapse dt).management with replyFull := satAdd (s.elapse dt).management.replyFull 1 } }))

/-- R148, R149, R150: a request of another Version, or one that arrives as a frame with a Code that no row has, is
answered BAD_REQUEST (log entry 34 for a Code of 80H or above) and one that is too short, or of another size than its
own, BAD_LENGTH, changing nothing; a token request, a SET MODE from ENFORCE to PASSIVE among them, with a wrong token
changes the failure count alone, the third failure beginning a lockout of 60000 ms with its record, whose NOTICE follows
the response (log entry 17); in a lockout it is answered LOCKED_OUT. -/
def Obligations.FailedTestsChangeOnlyTheTokenCount : Prop :=
  (∀ (code : Byte) (dt : Nat) (r : Request) (s : State), requestRow code dt r = none → r.tagOk = true →
    Accepted { r with version := 1, payloadLength := 0 } (s.elapse dt) →
    exec (.frameArrival dt r.port (wireFrame s.station code r)) s =
      .next (answered code r (s.elapse dt) (received r (s.elapse dt)) .badRequest [])) ∧
  ∀ (code : Byte) (dt : Nat) (r : Request) (i : Instr) (s : State), requestRow code dt r = some i →
    (Accepted { r with version := 1, payloadLength := 0 } (s.elapse dt) →
      (r.version ≠ 1 →
        exec i s = .next (answered code r (s.elapse dt) (received r (s.elapse dt)) .badRequest [])) ∧
      (r.version = 1 → r.payload.length < r.payloadLength.toNat →
        exec i s = .next (answered code r (s.elapse dt) (received r (s.elapse dt)) .badLength []))) ∧
    (∀ n, Accepted r (s.elapse dt) → requestSize code = some n → r.payloadLength.toNat ≠ n →
      code ∉ tokenCodes ∨ TokenPasses r (s.elapse dt) →
      exec i s = .next (answered code r (s.elapse dt)
        (if code ∈ tokenCodes then admitted r (s.elapse dt) else received r (s.elapse dt)) .badLength [])) ∧
    (Accepted r (s.elapse dt) → NeedsToken code r (s.elapse dt) →
      (∀ e, (s.elapse dt).lockoutEnd = some e →
        exec i s = .next (answered code r (s.elapse dt) (received r (s.elapse dt)) .lockedOut [])) ∧
      ((s.elapse dt).lockoutEnd = none → r.token ≠ (s.elapse dt).settings.token →
        exec i s = .next (answered code r (s.elapse dt)
          (if (s.elapse dt).tokenFailures = 2 then
            State.record
              { received r (s.elapse dt) with
                tokenFailures := 0
                lockoutEnd := some ((s.elapse dt).clock + 60000) }
              { time := (s.elapse dt).clock, kind := .tokenLockout, source := some r.source, extra := some 60 }
          else { received r (s.elapse dt) with tokenFailures := (s.elapse dt).tokenFailures + 1 })
          .notAuthorized [])))

/-- IDENTIFY, TABLE_READ, READ_SHADOW and READ_LOADS answer and change nothing (R152, R132, R91, R128). READ_SHADOW sends
each entry of its slot from First Object on once, in ascending order of Object, the first 32 when there are more, and
More says so. A TABLE_READ that fails a test of R132, and a READ_SHADOW of a slot above 15, are answered by that test. -/
def Obligations.QueriesAnswerAndChangeNothing : Prop :=
  ∀ (dt : Nat) (r : Request) (s : State), Accepted r (s.elapse dt) →
    (r.payloadLength = 0 →
      exec (.identify dt r) s = .next (answered 0x01 r (s.elapse dt) (received r (s.elapse dt)) .ok
        ([0x04, 0x16, 1, outcomeCode (s.elapse dt).startOutcome] ++ beBytes 6 (s.elapse dt).station.toNat ++
          beBytes 6 (s.elapse dt).clock))) ∧
    (∀ id t, r.payloadLength = 6 → bankOfByte (byteAt r.payload 0) = some id →
      tableOfByte (byteAt r.payload 1) = some t → 1 ≤ (be16At r.payload 4).toNat →
      (be16At r.payload 4).toNat ≤ tableReadLimit t →
      (be16At r.payload 2).toNat + (be16At r.payload 4).toNat ≤ tableEntries t →
      exec (.tableRead dt r) s = .next (answered 0x04 r (s.elapse dt) (received r (s.elapse dt)) .ok
        ([BitVec.ofNat 8 (bankCode id), if id = (s.elapse dt).active then 1 else 0, tableCode t, 0] ++
          beBytes 2 (be16At r.payload 2).toNat ++ beBytes 2 (be16At r.payload 4).toNat ++
          runBytes t (be16At r.payload 4).toNat (be16At r.payload 2).toNat ((s.elapse dt).bank id)))) ∧
    (r.payloadLength = 6 →
      (bankOfByte (byteAt r.payload 0) = none ∨ tableOfByte (byteAt r.payload 1) = none ∨
          be16At r.payload 4 = 0 ∨
          ∃ t, tableOfByte (byteAt r.payload 1) = some t ∧ tableReadLimit t < (be16At r.payload 4).toNat) →
      exec (.tableRead dt r) s =
        .next (answered 0x04 r (s.elapse dt) (received r (s.elapse dt)) .badArgument [])) ∧
    (∀ t, r.payloadLength = 6 → (bankOfByte (byteAt r.payload 0)).isSome = true →
      tableOfByte (byteAt r.payload 1) = some t → 1 ≤ (be16At r.payload 4).toNat →
      (be16At r.payload 4).toNat ≤ tableReadLimit t →
      tableEntries t < (be16At r.payload 2).toNat + (be16At r.payload 4).toNat →
      exec (.tableRead dt r) s =
        .next (answered 0x04 r (s.elapse dt) (received r (s.elapse dt)) .badIndex [])) ∧
    (r.payloadLength = 6 → 16 ≤ (byteAt r.payload 0).toNat →
      exec (.readShadow dt r) s =
        .next (answered 0x0E r (s.elapse dt) (received r (s.elapse dt)) .badArgument [])) ∧
    (∀ slot : Fin 16, r.payloadLength = 6 → (byteAt r.payload 0).toNat = slot.val →
      ∃ held : List ShadowEntry,
        held.Perm ((s.elapse dt).shadow.filter (fun x =>
          decide (x.slot = slot) && decide ((be32At r.payload 2).toNat ≤ x.object.toNat))) ∧
        held.Pairwise (fun x y => x.object.toNat ≤ y.object.toNat) ∧
        exec (.readShadow dt r) s = .next (answered 0x0E r (s.elapse dt) (received r (s.elapse dt)) .ok
          ([BitVec.ofNat 8 slot.val, if 32 < held.length then 1 else 0, BitVec.ofNat 8 (held.take 32).length, 0] ++
            beBytes 6 (s.elapse dt).clock ++ (held.take 32).flatMap shadowBytes))) ∧
    (r.payloadLength = 0 →
      exec (.readLoads dt r) s = .next (answered 0x10 r (s.elapse dt) (received r (s.elapse dt)) .ok
        (beBytes 6 (s.elapse dt).clock ++
          (List.finRange 4).flatMap (fun d => loadBytes (s.elapse dt).activeBank (s.elapse dt).loads[d]))))

/-- READ_STATUS (R154, R109, 11 section 11.3): nothing changes, and each byte of the response stands for its item; Used is
00H for every slot not used (log entry 25). -/
def Obligations.ReadStatusReportsTheState : Prop :=
  ∀ (dt : Nat) (r : Request) (s : State), Accepted r (s.elapse dt) → r.payloadLength = 0 →
    ∃ p, exec (.readStatus dt r) s =
        .next (answered 0x02 r (s.elapse dt) (received r (s.elapse dt)) .ok p) ∧
      p.length = 152 ∧ be48At p 0 = BitVec.ofNat 48 (s.elapse dt).clock ∧
      byteAt p 6 = modeCode (s.elapse dt).mode ∧ byteAt p 7 = outcomeCode (s.elapse dt).startOutcome ∧
      byteAt p 8 = (if (s.elapse dt).active = .a then 0 else 1) ∧
      ((byteAt p 9).getLsbD 0 = (s.elapse dt).lock ∧ (byteAt p 9).getLsbD 1 = (s.elapse dt).net.up ∧
        (byteAt p 9).getLsbD 2 = (s.elapse dt).cell.up ∧ (byteAt p 9).getLsbD 3 = (s.elapse dt).permit ∧
        (byteAt p 9).getLsbD 4 = (s.elapse dt).alert ∧ (byteAt p 9).getLsbD 5 = (s.elapse dt).overflow ∧
        (byteAt p 9).getLsbD 6 = (s.elapse dt).lockoutEnd.isSome ∧
        (byteAt p 9).getLsbD 7 = (s.elapse dt).settings.cellManagement) ∧
      byteAt p 10 = BitVec.ofNat 8 (s.elapse dt).events.length ∧
      byteAt p 11 =
        BitVec.ofNat 8 ((List.finRange 4).filter (fun d => (s.elapse dt).loads[d].isSome)).length ∧
      be16At p 12 = BitVec.ofNat 16 (s.elapse dt).outstanding.length ∧
      be16At p 14 = BitVec.ofNat 16 (s.elapse dt).shadow.length ∧
      byteAt p 16 = BitVec.ofNat 8 (s.elapse dt).tokenFailures.val ∧
      byteAt p 17 = (if (s.elapse dt).save.isSome = true then 1 else 0) ∧
      byteAt p 18 = saveResultCode (s.elapse dt).lastSave ∧
      byteAt p 19 = BitVec.ofNat 8 (s.elapse dt).settings.sources.length ∧
      byteAt p 20 = (if (s.elapse dt).settings.notice.isSome = true then 1 else 0) ∧ byteAt p 21 = 0 ∧
      be16At p 22 =
        (match (s.elapse dt).lockoutEnd with
          | some e => BitVec.ofNat 16 ((e - (s.elapse dt).clock + 999) / 1000)
          | none => 0) ∧
      ∀ i : Fin 16,
        (slotUsed (s.elapse dt).activeBank i = false → ∀ k < 8, byteAt p (24 + 8 * i.val + k) = 0) ∧
        ∀ g, slotUsed (s.elapse dt).activeBank i = true → (s.elapse dt).guards[i] = some g →
          byteAt p (24 + 8 * i.val) = 1 ∧ byteAt p (25 + 8 * i.val) = guardCode g.state ∧
          byteAt p (26 + 8 * i.val) = g.intervalCount ∧
          byteAt p (27 + 8 * i.val) = BitVec.ofNat 8 g.lastAverage ∧
          be16At p (28 + 8 * i.val) =
            (match g.state with
              | .window d => BitVec.ofNat 16 ((d - (s.elapse dt).clock + 999) / 1000)
              | .normal => 0
              | .frozen => 0) ∧
          be16At p (30 + 8 * i.val) = 0

/-- READ_COUNTERS (R155): the 80 counters in their order and the clock; CLEAR sets every one of them to 0 after its value is
taken, KEEP changes nothing, and another option is answered BAD_ARGUMENT. -/
def Obligations.ReadCountersTakesAndClears : Prop :=
  ∀ (dt : Nat) (r : Request) (s : State), Accepted r (s.elapse dt) → r.payloadLength = 1 →
    (1 < (byteAt r.payload 0).toNat →
      exec (.readCounters dt r) s =
        .next (answered 0x03 r (s.elapse dt) (received r (s.elapse dt)) .badArgument [])) ∧
    ((byteAt r.payload 0).toNat ≤ 1 → ∃ p,
      exec (.readCounters dt r) s =
        .next (answered 0x03 r (s.elapse dt)
          (if byteAt r.payload 0 = 0 then received r (s.elapse dt)
          else
            { s.elapse dt with
              net :=
                { (s.elapse dt).net with
                  received := 0, forwarded := 0, queueFullDrops := 0, formatDrops := 0, guardDrops := 0, linkDrops := 0 }
              cell :=
                { (s.elapse dt).cell with
                  received := 0, forwarded := 0, queueFullDrops := 0, formatDrops := 0, guardDrops := 0, linkDrops := 0 }
              decisions := Vector.replicate 16 {}
              management := {} }) .ok p) ∧
      p.length = 326 ∧
      (be32At p 0 = (received r (s.elapse dt)).net.received ∧
        be32At p 4 = (s.elapse dt).net.forwarded ∧ be32At p 8 = (s.elapse dt).net.queueFullDrops ∧
        be32At p 12 = (s.elapse dt).net.formatDrops ∧ be32At p 16 = (s.elapse dt).net.guardDrops ∧
        be32At p 20 = (s.elapse dt).net.linkDrops) ∧
      (be32At p 24 = (received r (s.elapse dt)).cell.received ∧
        be32At p 28 = (s.elapse dt).cell.forwarded ∧ be32At p 32 = (s.elapse dt).cell.queueFullDrops ∧
        be32At p 36 = (s.elapse dt).cell.formatDrops ∧ be32At p 40 = (s.elapse dt).cell.guardDrops ∧
        be32At p 44 = (s.elapse dt).cell.linkDrops) ∧
      (∀ i : Fin 16, be32At p (48 + 16 * i.val) = (s.elapse dt).decisions[i].permitted ∧
        be32At p (52 + 16 * i.val) = (s.elapse dt).decisions[i].denied ∧
        be32At p (56 + 16 * i.val) = (s.elapse dt).decisions[i].clamped ∧
        be32At p (60 + 16 * i.val) = (s.elapse dt).decisions[i].refused) ∧
      (be32At p 304 = (s.elapse dt).management.notRequests ∧ be32At p 308 = (s.elapse dt).management.refused ∧
        be32At p 312 = (s.elapse dt).management.replyFull ∧ be32At p 316 = (s.elapse dt).management.noticesLost) ∧
      be48At p 320 = BitVec.ofNat 48 (s.elapse dt).clock)

/-- TABLE_WRITE and BANK_COPY (R131, R133, R143): with the lock CLEAR the inactive bank alone changes; with it SET both are
answered POLICY_LOCKED and change nothing; and so does a TABLE_WRITE that fails another test of R131, with the status of
the first test it fails. -/
def Obligations.InactiveBankTakesTheWrites : Prop :=
  ∀ (dt : Nat) (r : Request) (s : State), Accepted r (s.elapse dt) →
    ((s.elapse dt).lock = true →
      exec (.tableWrite dt r) s =
        .next (answered 0x05 r (s.elapse dt) (received r (s.elapse dt)) .policyLocked []) ∧
      (r.payloadLength = 0 → exec (.bankCopy dt r) s =
        .next (answered 0x06 r (s.elapse dt) (received r (s.elapse dt)) .policyLocked []))) ∧
    ((s.elapse dt).lock = false → ∀ status,
      (r.payloadLength.toNat < 6 ∧ status = .badLength) ∨
        (6 ≤ r.payloadLength.toNat ∧
          (tableOfByte (byteAt r.payload 0) = none ∨ be16At r.payload 4 = 0) ∧ status = .badArgument) ∨
        (6 ≤ r.payloadLength.toNat ∧ be16At r.payload 4 ≠ 0 ∧ ∃ t, tableOfByte (byteAt r.payload 0) = some t ∧
          ((tableEntries t < (be16At r.payload 2).toNat + (be16At r.payload 4).toNat ∧ status = .badIndex) ∨
            ((be16At r.payload 2).toNat + (be16At r.payload 4).toNat ≤ tableEntries t ∧
              r.payloadLength.toNat ≠ 6 + (be16At r.payload 4).toNat * tableEntrySize t ∧ status = .badLength))) →
      exec (.tableWrite dt r) s =
        .next (answered 0x05 r (s.elapse dt) (received r (s.elapse dt)) status [])) ∧
    ((s.elapse dt).lock = false →
      (∀ t, tableOfByte (byteAt r.payload 0) = some t → 1 ≤ (be16At r.payload 4).toNat →
        (be16At r.payload 2).toNat + (be16At r.payload 4).toNat ≤ tableEntries t →
        r.payloadLength.toNat = 6 + (be16At r.payload 4).toNat * tableEntrySize t →
        exec (.tableWrite dt r) s =
          .next (answered 0x05 r (s.elapse dt)
            ((received r (s.elapse dt)).setInactiveBank
              (writeRun t (be16At r.payload 4).toNat (be16At r.payload 2).toNat
                ((r.payload.take r.payloadLength.toNat).drop 6) (s.elapse dt).inactiveBank))
            .ok [if (s.elapse dt).active = .a then 1 else 0])) ∧
      (r.payloadLength = 0 →
        exec (.bankCopy dt r) s =
          .next (answered 0x06 r (s.elapse dt)
            { received r (s.elapse dt) with bankA := (s.elapse dt).activeBank, bankB := (s.elapse dt).activeBank }
            .ok (if (s.elapse dt).active = .a then [0, 1] else [1, 0]))))

/-- COMMIT (R135, R140 to R143, R55, R85, R107, R125): a bank that fails is answered INCONSISTENT with its first failing
entry, in the order of R135, and nothing changes, and a bank that does not meet R136 to R139 fails; with the lock SET,
POLICY_LOCKED; a bank that meets them becomes active, and the live state of the changed slots of R141, and of no other,
is cleared, with the records of R142 in their order. The NOTICE of a record follows the response (log entry 17). -/
def Obligations.CommitSwapsAPassingBank : Prop :=
  (∀ (old new : Bank) (i : Fin 16),
    i ∈ changedSlots old new ↔
      isUsed old.controllers[i].used ≠ isUsed new.controllers[i].used ∨
        (isUsed old.controllers[i].used = true ∧ isUsed new.controllers[i].used = true ∧
          (old.controllers[i].address ≠ new.controllers[i].address ∨
            old.controllers[i].profile ≠ new.controllers[i].profile))) ∧
  ∀ (dt : Nat) (r : Request) (s : State), Accepted r (s.elapse dt) → r.payloadLength = 0 →
    ((s.elapse dt).lock = true →
      exec (.commit dt r) s =
        .next (answered 0x07 r (s.elapse dt) (received r (s.elapse dt)) .policyLocked [])) ∧
    (∀ t k, (s.elapse dt).lock = false →
      firstFailure (s.elapse dt).station (s.elapse dt).inactiveBank = some (t, k) →
      exec (.commit dt r) s =
        .next (answered 0x07 r (s.elapse dt) (received r (s.elapse dt)) .inconsistent
          ([tableCode t, 0] ++ beBytes 2 k))) ∧
    (∀ t k, (s.elapse dt).lock = false → FirstToFail (s.elapse dt).station (s.elapse dt).inactiveBank t k →
      exec (.commit dt r) s =
        .next (answered 0x07 r (s.elapse dt) (received r (s.elapse dt)) .inconsistent
          ([tableCode t, 0] ++ beBytes 2 k))) ∧
    ((s.elapse dt).lock = false → ¬ PassingBank (s.elapse dt).station (s.elapse dt).inactiveBank →
      ∃ t k, exec (.commit dt r) s =
        .next (answered 0x07 r (s.elapse dt) (received r (s.elapse dt)) .inconsistent
          ([tableCode t, 0] ++ beBytes 2 k))) ∧
    ((s.elapse dt).lock = false →
      firstFailure (s.elapse dt).station (s.elapse dt).inactiveBank = none ∨
        PassingBank (s.elapse dt).station (s.elapse dt).inactiveBank →
      exec (.commit dt r) s =
        .next (answered 0x07 r (s.elapse dt)
          (let u := s.elapse dt
          let changed := changedSlots u.activeBank u.inactiveBank
          addRecords
            { received r u with
              active := otherBank u.active
              guards := Vector.ofFn (fun i =>
                if i ∈ changed then (if slotUsed u.inactiveBank i then some {} else none) else u.guards[i])
              alert := (List.finRange 16).any (fun i => decide (i ∉ changed) && isFrozen u i)
              loads := Vector.ofFn (fun d => u.loads[d].filter (fun x => decide (x.controller ∉ changed)))
              outstanding := u.outstanding.filter (fun e => decide (e.slot ∉ changed))
              shadow := u.shadow.filter (fun e => decide (e.slot ∉ changed))
              decisions := Vector.ofFn (fun i => if i ∈ changed then {} else u.decisions[i]) }
            (changed.flatMap (fun i =>
                (if inWindow u i then [closedRecord u .policy none i] else []) ++
                (if isFrozen u i then [{ time := u.clock, kind := .thawed, slot := some i }] else [])) ++
              (List.finRange 4).filterMap (fun d =>
                (u.loads[d].filter (fun x => decide (x.controller ∈ changed))).map (fun x =>
                  { time := u.clock, kind := .loadAborted, reason := some .policy, slot := some x.controller,
                    source := some x.source, extra := some x.byteCount.toNat })) ++
              [{ time := u.clock, kind := .committed, source := some r.source,
                 extra := some (if u.active = .a then 1 else 0) }]))
          .ok [if (s.elapse dt).active = .a then 1 else 0]))

/-- LOCK_POLICY and SET_MODE (R143, R156): the lock is set with one record, or stays SET; the mode becomes the one asked
with one record, or stays; ENFORCE to PASSIVE needs the token, every other change does not. The NOTICE of a record
follows the response (log entry 17). -/
def Obligations.LockAndModeAreSet : Prop :=
  ∀ (dt : Nat) (r : Request) (s : State), Accepted r (s.elapse dt) →
    (r.payloadLength = 0 → TokenPasses r (s.elapse dt) →
      exec (.lockPolicy dt r) s =
        .next (answered 0x08 r (s.elapse dt)
          (if (s.elapse dt).lock = true then admitted r (s.elapse dt)
          else
            State.record { admitted r (s.elapse dt) with lock := true }
              { time := (s.elapse dt).clock, kind := .policyLocked, source := some r.source }) .ok [])) ∧
    (∀ m, r.payloadLength = 1 → (byteAt r.payload 0 = 1 ∧ m = .passive) ∨ (byteAt r.payload 0 = 2 ∧ m = .enforce) →
      (s.elapse dt).mode ≠ .enforce ∨ m = .enforce →
      exec (.setMode dt r) s =
        .next (answered 0x09 r (s.elapse dt)
          (if (s.elapse dt).mode = m then received r (s.elapse dt)
          else
            State.record { received r (s.elapse dt) with mode := m }
              { time := (s.elapse dt).clock, kind := .modeChanged, source := some r.source,
                extra := some (byteAt r.payload 0).toNat }) .ok [byteAt r.payload 0])) ∧
    (r.payloadLength = 1 → byteAt r.payload 0 = 1 → (s.elapse dt).mode = .enforce → TokenPasses r (s.elapse dt) →
      exec (.setMode dt r) s =
        .next (answered 0x09 r (s.elapse dt)
          (State.record { admitted r (s.elapse dt) with mode := .passive }
            { time := (s.elapse dt).clock, kind := .modeChanged, source := some r.source, extra := some 1 }) .ok [1])) ∧
    (r.payloadLength = 1 → byteAt r.payload 0 ≠ 1 → byteAt r.payload 0 ≠ 2 →
      exec (.setMode dt r) s =
        .next (answered 0x09 r (s.elapse dt) (received r (s.elapse dt)) .badArgument []))

/-- OPEN_WINDOW after its token test (R94, R95): BAD_ARGUMENT, NO_PERMIT and FROZEN in that order, opening nothing; else
every masked used slot is in WINDOW until the granted duration, at most 3600 s, has passed, with one record each.
The NOTICE of a record follows the response (log entry 17). -/
def Obligations.OpenWindowOpensTheMaskedSlots : Prop :=
  ∀ (dt : Nat) (r : Request) (s : State), Accepted r (s.elapse dt) → r.payloadLength = 4 →
    TokenPasses r (s.elapse dt) →
    exec (.openWindow dt r) s =
      .next
        (let u := s.elapse dt
        let slots := named u (be16At r.payload 0)
        let granted := min (be16At r.payload 2).toNat 3600
        if be16At r.payload 2 = 0 ∨ slots = [] then answered 0x0A r u (admitted r u) .badArgument []
        else if u.permit = false then answered 0x0A r u (admitted r u) .noPermit []
        else if (∃ i ∈ slots, isFrozen u i = true) then answered 0x0A r u (admitted r u) .frozen []
        else
          answered 0x0A r u
            (addRecords { admitted r u with guards := guardsWith u slots (.window (u.clock + granted * 1000)) }
              (slots.map (fun i =>
                { time := u.clock, kind := .windowOpened, slot := some i, source := some r.source,
                  extra := some granted })))
            .ok (beBytes 2 granted ++ beBytes 2 (maskOf slots).toNat))

/-- CLOSE_WINDOW (R96, R97, R124): BAD_ARGUMENT for a mask without a used slot; else each masked slot in WINDOW is
closed with reason REQUEST and the requester as source, and its LOADING record aborted. The NOTICE of a record
follows the response (log entry 17). -/
def Obligations.CloseWindowClosesTheMaskedSlots : Prop :=
  ∀ (dt : Nat) (r : Request) (s : State), Accepted r (s.elapse dt) → r.payloadLength = 2 → OneLoadEach (s.elapse dt) →
    exec (.closeWindow dt r) s =
      .next
        (let u := s.elapse dt
        let slots := (named u (be16At r.payload 0)).filter (inWindow u)
        if named u (be16At r.payload 0) = [] then answered 0x0B r u (received r u) .badArgument []
        else
          answered 0x0B r u (windowsClosed (received r u) slots .request (some r.source)) .ok
            (beBytes 2 (maskOf slots).toNat))

/-- THAW after its token test (R105, R106): BAD_ARGUMENT for a mask without a used slot; else each masked FROZEN slot
becomes NORMAL with a cleared score and one record, and ALERT follows. The NOTICE of a record follows the response
(log entry 17). -/
def Obligations.ThawClearsTheFrozenSlots : Prop :=
  ∀ (dt : Nat) (r : Request) (s : State), Accepted r (s.elapse dt) → r.payloadLength = 2 →
    TokenPasses r (s.elapse dt) →
    exec (.thaw dt r) s =
      .next
        (let u := s.elapse dt
        let slots := (named u (be16At r.payload 0)).filter (isFrozen u)
        if named u (be16At r.payload 0) = [] then answered 0x0C r u (admitted r u) .badArgument []
        else
          answered 0x0C r u
            (addRecords
              { admitted r u with
                guards := Vector.ofFn (fun i => if i ∈ slots then some {} else u.guards[i])
                alert := (List.finRange 16).any (fun i => isFrozen u i && decide (i ∉ slots)) }
              (slots.map (fun i =>
                { time := u.clock, kind := .thawed, slot := some i, source := some r.source })))
            .ok (beBytes 2 (maskOf slots).toNat))

/-- FETCH_EVENTS and FORGET_SHADOW (R161, R90): the oldest records, at most 24, leave the queue and are sent, and the overflow
flag is sent and CLEAR after; the entries named leave the Shadow Store and are counted. -/
def Obligations.FetchAndForgetRemoveWhatTheySay : Prop :=
  ∀ (dt : Nat) (r : Request) (s : State), Accepted r (s.elapse dt) →
    (r.payloadLength = 1 → byteAt r.payload 0 = 0 →
      exec (.fetchEvents dt r) s =
        .next (answered 0x0D r (s.elapse dt) (received r (s.elapse dt)) .badArgument [])) ∧
    (∀ n, r.payloadLength = 1 → byteAt r.payload 0 ≠ 0 → n = min (byteAt r.payload 0).toNat 24 →
      exec (.fetchEvents dt r) s =
        .next (answered 0x0D r (s.elapse dt)
          { received r (s.elapse dt) with events := (s.elapse dt).events.drop n, overflow := false } .ok
          ([BitVec.ofNat 8 (min n (s.elapse dt).events.length), if (s.elapse dt).overflow = true then 1 else 0,
              BitVec.ofNat 8 ((s.elapse dt).events.length - n), 0] ++
            ((s.elapse dt).events.take n).flatMap recordBytes))) ∧
    (∀ slot : Fin 16, r.payloadLength = 6 → TokenPasses r (s.elapse dt) → (byteAt r.payload 0).toNat = slot.val →
      (byteAt r.payload 1).toNat ≤ 1 →
      exec (.forgetShadow dt r) s =
        .next
          (let u := s.elapse dt
          let kept := u.shadow.filter (fun e =>
            decide (e.slot ≠ slot) || (byteAt r.payload 1 == 0 && decide (e.object ≠ be32At r.payload 2)))
          answered 0x0F r u { admitted r u with shadow := kept } .ok (beBytes 2 (u.shadow.length - kept.length)))) ∧
    (r.payloadLength = 6 → TokenPasses r (s.elapse dt) →
      16 ≤ (byteAt r.payload 0).toNat ∨ 1 < (byteAt r.payload 1).toNat →
      exec (.forgetShadow dt r) s =
        .next (answered 0x0F r (s.elapse dt) (admitted r (s.elapse dt)) .badArgument []))

/-- SET_NOTICE_DESTINATION and SET_SETTINGS (R157, R158): the destination is set or cleared and echoed (a zero address clears
it whatever the VLAN bytes hold, the model's reading of log entry 23); every carried setting replaces the working one
and the notice destination stays; a failing argument changes nothing. -/
def Obligations.SettingsAreReplaced : Prop :=
  ∀ (dt : Nat) (r : Request) (s : State), Accepted r (s.elapse dt) →
    (r.payloadLength = 10 → be48At r.payload 0 = 0 →
      exec (.setNoticeDestination dt r) s =
        .next (answered 0x11 r (s.elapse dt)
          { received r (s.elapse dt) with settings := { (s.elapse dt).settings with notice := none } } .ok
          (List.replicate 10 0))) ∧
    (r.payloadLength = 10 → be48At r.payload 0 ≠ 0 → 1 < (byteAt r.payload 6).toNat →
      exec (.setNoticeDestination dt r) s =
        .next (answered 0x11 r (s.elapse dt) (received r (s.elapse dt)) .badArgument [])) ∧
    (∀ v, r.payloadLength = 10 → be48At r.payload 0 ≠ 0 →
      (byteAt r.payload 6 = 0 ∧ v = none) ∨ (byteAt r.payload 6 = 1 ∧ v = some (be16At r.payload 8)) →
      exec (.setNoticeDestination dt r) s =
        .next (answered 0x11 r (s.elapse dt)
          { received r (s.elapse dt) with
            settings := { (s.elapse dt).settings with notice := some ⟨be48At r.payload 0, v⟩ } } .ok
          (beBytes 6 (be48At r.payload 0).toNat ++
            (match v with
              | some c => [1, 0] ++ beBytes 2 c.toNat
              | none => [0, 0, 0, 0])))) ∧
    (∀ (t : Settings) (fill rest : List Byte), r.payloadLength = 36 → TokenPasses r (s.elapse dt) → SettingsLegal t →
      t.notice = (s.elapse dt).settings.notice → fill.length = 24 - 6 * t.sources.length →
      r.payload =
        [BitVec.ofNat 8 t.sources.length, if t.cellManagement = true then 1 else 0, if t.startEnforce = true then 2 else 1,
          if t.lockAtStart = true then 1 else 0] ++
        t.sources.flatMap (fun a => beBytes 6 a.toNat) ++ fill ++ beBytes 8 t.token.toNat ++ rest →
      exec (.setSettings dt r) s =
        .next (answered 0x12 r (s.elapse dt) { admitted r (s.elapse dt) with settings := t } .ok
          ([BitVec.ofNat 8 t.sources.length, if t.cellManagement = true then 1 else 0,
              if t.startEnforce = true then 2 else 1, if t.lockAtStart = true then 1 else 0] ++
            t.sources.flatMap (fun a => beBytes 6 a.toNat) ++ List.replicate (24 - 6 * t.sources.length) 0))) ∧
    (r.payloadLength = 36 → TokenPasses r (s.elapse dt) →
      4 < (byteAt r.payload 0).toNat ∨ 1 < (byteAt r.payload 1).toNat ∨
          (byteAt r.payload 2 ≠ 1 ∧ byteAt r.payload 2 ≠ 2) ∨ 1 < (byteAt r.payload 3).toNat ∨
          (∃ k < (byteAt r.payload 0).toNat,
            isGroup (be48At r.payload (4 + 6 * k)) = true ∨ be48At r.payload (4 + 6 * k) = 0 ∨
              ∃ j < k, be48At r.payload (4 + 6 * j) = be48At r.payload (4 + 6 * k)) →
      exec (.setSettings dt r) s =
        .next (answered 0x12 r (s.elapse dt) (admitted r (s.elapse dt)) .badArgument []))

/-- SAVE and RESTART after their token tests (R169, R172): BUSY in the cases of their rules; else a SAVE takes its snapshot and
begins, with the limit 4000 ms later and the Save Mark INCOMPLETE (log entry 13), and a RESTART becomes pending, its
response being the one whose report takes the reset; the response of a second RESTART is an ordinary one (log entry
28). -/
def Obligations.SaveAndRestartAreAccepted : Prop :=
  ∀ (dt : Nat) (r : Request) (s : State), Accepted r (s.elapse dt) → r.payloadLength = 0 → TokenPasses r (s.elapse dt) →
    ((s.elapse dt).save.isSome = true ∨ (s.elapse dt).restartPending = true →
      exec (.save dt r) s = .next (answered 0x13 r (s.elapse dt) (admitted r (s.elapse dt)) .busy [])) ∧
    ((s.elapse dt).save = none → (s.elapse dt).restartPending = false →
      ∃ m, exec (.save dt r) s =
          .next (answered 0x13 r (s.elapse dt)
            { admitted r (s.elapse dt) with
              memory := m
              save := some
                { settings := (s.elapse dt).settings, bank := (s.elapse dt).activeBank, bankId := (s.elapse dt).active,
                  requester := r.source, limit := (s.elapse dt).clock + 4000 } } .ok
            [if (s.elapse dt).active = .a then 0 else 1]) ∧
        (memoryWf (s.elapse dt).memory = true →
          memoryRead m (headerAddress + 5) = markIncomplete ∧
          ∀ a : Nat, a < headerAddress ∨ headerAddress + 16 ≤ a →
            memoryRead m a = memoryRead (s.elapse dt).memory a)) ∧
    ((s.elapse dt).save.isSome = true →
      exec (.restart dt r) s = .next (answered 0x14 r (s.elapse dt) (admitted r (s.elapse dt)) .busy [])) ∧
    ((s.elapse dt).save = none → (s.elapse dt).restartPending = true →
      exec (.restart dt r) s = .next (answered 0x14 r (s.elapse dt) (admitted r (s.elapse dt)) .ok [])) ∧
    ((s.elapse dt).save = none → (s.elapse dt).restartPending = false →
      exec (.restart dt r) s =
        .next
          (let w := { admitted r (s.elapse dt) with restartPending := true }
          w.setPort r.port (placeReply (w.port r.port)
            ⟨.restartResponse, responseFrame (s.elapse dt).station 0x14 r ⟨w, .ok, [], true⟩⟩)))

/-- A response frame (R147, R7, 11 section 11.1), byte by byte: addresses, the request's VLAN tag, 88B6H, the header, the
payload, zero bytes up to 64 bytes and no further, and the FCS (log entry 10). The code of a request Code of 80H or above
is cut to a byte (log entry 34). A NOTICE frame (R162): to the notice destination, with its VLAN tag when one is set, Code
C0H, Tag 0, Status OK and the record's time and kind and the overflow flag. An event record (R160, 11 section 11.5): 44
bytes, the fields in their places. -/
def Obligations.ResponseFrameIsLaidOut : Prop :=
  (∀ e : EventRecord, RecordLaidOut e (recordBytes e)) ∧
  (∀ (s : State) (n : NoticeDestination) (e : EventRecord) (flag : Bool) (f : List Byte), f = noticeFrame s n e flag →
    fcsOk f = true ∧ f.length = 64 ∧
      (readLayers (withoutFcs f)).destination = n.address ∧ (readLayers (withoutFcs f)).source = s.station ∧
      (readLayers (withoutFcs f)).vlanTag = n.vlan.map (fun control => 0x8100#16 ++ control) ∧
      (readLayers (withoutFcs f)).payloadType = some 0x88B6 ∧
      ∃ (kind : Byte) (padding : List Byte), (e.kind, kind) ∈ kindTable ∧ (∀ x ∈ padding, x = 0) ∧
        (readLayers (withoutFcs f)).payload =
          [1, 0xC0, 0, 0, 0, 0, 0, 8] ++ beBytes 6 e.time ++ [kind, if flag = true then 1 else 0] ++ padding) ∧
  ∀ (station : MacAddress) (code : Byte) (r : Request) (a : Answer), r.tagOk = true → a.payload.length ≤ 1484 →
    (let f := responseFrame station code r a
    fcsOk f = true ∧ 64 ≤ f.length ∧
      (readLayers (withoutFcs f)).destination = r.source ∧ (readLayers (withoutFcs f)).source = station ∧
      (readLayers (withoutFcs f)).vlanTag = r.vlanTag ∧ (readLayers (withoutFcs f)).payloadType = some 0x88B6 ∧
      ∃ padding : List Byte, (readLayers (withoutFcs f)).payload =
        [1, code + 0x80] ++ beBytes 2 r.tag.toNat ++ [statusCode a.status, 0] ++ beBytes 2 a.payload.length ++ a.payload ++
          padding ∧ (∀ x ∈ padding, x = 0) ∧ (padding = [] ∨ f.length = 64))

/-! ### Rules of the whole machine -/

/-- ENFORCE is left for PASSIVE only by a SET MODE request that carries the token (R156). -/
def Obligations.EnforceIsLeftOnlyWithTheToken : Prop :=
  ∀ (c : Instr) (s t : State), s.mode = .enforce → exec c s = .next t → t.mode = .passive →
    ∃ r, carried c = some (0x09, r) ∧ r.token = s.settings.token

/-- While the policy lock is SET, no command but a reset changes a bank, the marker or the lock (R143). -/
def Obligations.LockedPolicyDoesNotChange : Prop :=
  ∀ (c : Instr) (s t : State), s.lock = true → s.mode ≠ .starting → exec c s = .next t → t.mode ≠ .starting →
    t.bankA = s.bankA ∧ t.bankB = s.bankB ∧ t.active = s.active ∧ t.lock = true

/-- The state after reset meets every invariant below. -/
def Obligations.ResetMeetsTheInvariants : Prop :=
  MemoryCanonical State.reset ∧ QueuesBounded State.reset ∧ TablesBounded State.reset ∧ GuardsSound State.reset ∧
  BankConsistent State.reset ∧ DeadlinesAhead State.reset ∧ EventsOrdered State.reset

/-- Every step keeps the serial memory in its canonical form. -/
def Obligations.MemoryStaysCanonical : Prop :=
  ∀ s t : State, MemoryCanonical s → step s = .next t → MemoryCanonical t

/-- Every step keeps the queues within their capacities (R6, R7, R159). -/
def Obligations.QueuesStayBounded : Prop := ∀ s t : State, QueuesBounded s → step s = .next t → QueuesBounded t

/-- Every step keeps the tables within their capacities and their keys unique (R73, R86, R110). -/
def Obligations.TablesStayBounded : Prop := ∀ s t : State, TablesBounded s → step s = .next t → TablesBounded t

/-- Every step keeps a guard for exactly the used slots, ALERT with the FROZEN slots, and no window without the permit (R92,
R99, R106). -/
def Obligations.GuardsStaySound : Prop := ∀ s t : State, GuardsSound s → step s = .next t → GuardsSound t

/-- A bank passes the consistency checks exactly when it meets R136 to R139: among the rest, every chain reaches END
over used rules (R40); otherwise they name the first entry that fails in the order of R135. Every step keeps the active
bank one that passes them (R40, R135, R166). -/
def Obligations.ActiveBankStaysConsistent : Prop :=
  (∀ (station : MacAddress) (b : Bank), (firstFailure station b = none ↔ PassingBank station b) ∧
    ∀ t k, firstFailure station b = some (t, k) ↔ FirstToFail station b t k) ∧
  ∀ s t : State, BankConsistent s → step s = .next t → BankConsistent t

/-- No step passes a deadline over: each is taken when the clock reaches it, or waits there; and time that goes beyond the
earliest deadline first takes its expiry, with the effect of its own row at its own instant, and then goes on (R80, R93,
R98, R101, R123, R150, R170; log entries 1 and 4). -/
def Obligations.NoDeadlineIsPassedOver : Prop :=
  (∀ s t : State, DeadlinesAhead s → step s = .next t → DeadlinesAhead t) ∧
  ∀ (s : State) (n at' : Nat) (timer : Timer), DeadlinesAhead s → s.resetN = true →
    earliest (deadlines s) = some (at', timer) → at' < s.clock + n →
    ∃ w, exec (expiryRow timer) { s with clock := at' } = .next w ∧ w.clock = at' ∧
      s.elapse n = w.elapse (s.clock + n - at')

/-- Every step keeps the records of the Event Queue in order of time (R159). -/
def Obligations.EventsStayInOrder : Prop :=
  ∀ s t : State, DeadlinesAhead s → EventsOrdered s → step s = .next t → EventsOrdered t
end

