-- ==== Sys2Proof/Laws/State.lean ====
section
/-! SUPPORT. What each named update of State does to each field, one lemma per field. -/

namespace Sys2Proof.Laws

open Sys2Proof Sys2Proof.Machine

/-! ### A record added to the Event Queue -/

@[simp] theorem record_resetN (s : State) (e : EventRecord) : (s.record e).resetN = s.resetN := by
  unfold State.record; split <;> rfl

@[simp] theorem record_netLink (s : State) (e : EventRecord) : (s.record e).netLink = s.netLink := by
  unfold State.record; split <;> rfl

@[simp] theorem record_cellLink (s : State) (e : EventRecord) : (s.record e).cellLink = s.cellLink := by
  unfold State.record; split <;> rfl

@[simp] theorem record_chgPermit (s : State) (e : EventRecord) : (s.record e).chgPermit = s.chgPermit := by
  unfold State.record; split <;> rfl

@[simp] theorem record_clock (s : State) (e : EventRecord) : (s.record e).clock = s.clock := by
  unfold State.record; split <;> rfl

@[simp] theorem record_net (s : State) (e : EventRecord) : (s.record e).net = s.net := by
  unfold State.record; split <;> rfl

@[simp] theorem record_cell (s : State) (e : EventRecord) : (s.record e).cell = s.cell := by
  unfold State.record; split <;> rfl

@[simp] theorem record_decisions (s : State) (e : EventRecord) : (s.record e).decisions = s.decisions := by
  unfold State.record; split <;> rfl

@[simp] theorem record_outstanding (s : State) (e : EventRecord) : (s.record e).outstanding = s.outstanding := by
  unfold State.record; split <;> rfl

@[simp] theorem record_shadow (s : State) (e : EventRecord) : (s.record e).shadow = s.shadow := by
  unfold State.record; split <;> rfl

@[simp] theorem record_guards (s : State) (e : EventRecord) : (s.record e).guards = s.guards := by
  unfold State.record; split <;> rfl

@[simp] theorem record_permit (s : State) (e : EventRecord) : (s.record e).permit = s.permit := by
  unfold State.record; split <;> rfl

@[simp] theorem record_permitPeriod (s : State) (e : EventRecord) : (s.record e).permitPeriod = s.permitPeriod := by
  unfold State.record; split <;> rfl

@[simp] theorem record_intervalNext (s : State) (e : EventRecord) : (s.record e).intervalNext = s.intervalNext := by
  unfold State.record; split <;> rfl

@[simp] theorem record_alert (s : State) (e : EventRecord) : (s.record e).alert = s.alert := by
  unfold State.record; split <;> rfl

@[simp] theorem record_loads (s : State) (e : EventRecord) : (s.record e).loads = s.loads := by
  unfold State.record; split <;> rfl

@[simp] theorem record_bankA (s : State) (e : EventRecord) : (s.record e).bankA = s.bankA := by
  unfold State.record; split <;> rfl

@[simp] theorem record_bankB (s : State) (e : EventRecord) : (s.record e).bankB = s.bankB := by
  unfold State.record; split <;> rfl

@[simp] theorem record_active (s : State) (e : EventRecord) : (s.record e).active = s.active := by
  unfold State.record; split <;> rfl

@[simp] theorem record_lock (s : State) (e : EventRecord) : (s.record e).lock = s.lock := by
  unfold State.record; split <;> rfl

@[simp] theorem record_mode (s : State) (e : EventRecord) : (s.record e).mode = s.mode := by
  unfold State.record; split <;> rfl

@[simp] theorem record_startOutcome (s : State) (e : EventRecord) : (s.record e).startOutcome = s.startOutcome := by
  unfold State.record; split <;> rfl

@[simp] theorem record_station (s : State) (e : EventRecord) : (s.record e).station = s.station := by
  unfold State.record; split <;> rfl

@[simp] theorem record_settings (s : State) (e : EventRecord) : (s.record e).settings = s.settings := by
  unfold State.record; split <;> rfl

@[simp] theorem record_tokenFailures (s : State) (e : EventRecord) : (s.record e).tokenFailures = s.tokenFailures := by
  unfold State.record; split <;> rfl

@[simp] theorem record_lockoutEnd (s : State) (e : EventRecord) : (s.record e).lockoutEnd = s.lockoutEnd := by
  unfold State.record; split <;> rfl

@[simp] theorem record_management (s : State) (e : EventRecord) : (s.record e).management = s.management := by
  unfold State.record; split <;> rfl

@[simp] theorem record_save (s : State) (e : EventRecord) : (s.record e).save = s.save := by
  unfold State.record; split <;> rfl

@[simp] theorem record_lastSave (s : State) (e : EventRecord) : (s.record e).lastSave = s.lastSave := by
  unfold State.record; split <;> rfl

@[simp] theorem record_restartPending (s : State) (e : EventRecord) : (s.record e).restartPending = s.restartPending := by
  unfold State.record; split <;> rfl

@[simp] theorem record_memory (s : State) (e : EventRecord) : (s.record e).memory = s.memory := by
  unfold State.record; split <;> rfl

@[simp] theorem record_freeValues (s : State) (e : EventRecord) : (s.record e).freeValues = s.freeValues := by
  unfold State.record; split <;> rfl

@[simp] theorem record_pending (s : State) (e : EventRecord) : (s.record e).pending = s.pending := by
  unfold State.record; split <;> rfl

/-! ### A Port Unit replaced -/

@[simp] theorem setPort_resetN (s : State) (p : Port) (ps : PortState) : (s.setPort p ps).resetN = s.resetN := by
  cases p <;> rfl

@[simp] theorem setPort_netLink (s : State) (p : Port) (ps : PortState) : (s.setPort p ps).netLink = s.netLink := by
  cases p <;> rfl

@[simp] theorem setPort_cellLink (s : State) (p : Port) (ps : PortState) : (s.setPort p ps).cellLink = s.cellLink := by
  cases p <;> rfl

@[simp] theorem setPort_chgPermit (s : State) (p : Port) (ps : PortState) : (s.setPort p ps).chgPermit = s.chgPermit := by
  cases p <;> rfl

@[simp] theorem setPort_clock (s : State) (p : Port) (ps : PortState) : (s.setPort p ps).clock = s.clock := by
  cases p <;> rfl

@[simp] theorem setPort_decisions (s : State) (p : Port) (ps : PortState) : (s.setPort p ps).decisions = s.decisions := by
  cases p <;> rfl

@[simp] theorem setPort_outstanding (s : State) (p : Port) (ps : PortState) : (s.setPort p ps).outstanding = s.outstanding := by
  cases p <;> rfl

@[simp] theorem setPort_shadow (s : State) (p : Port) (ps : PortState) : (s.setPort p ps).shadow = s.shadow := by
  cases p <;> rfl

@[simp] theorem setPort_guards (s : State) (p : Port) (ps : PortState) : (s.setPort p ps).guards = s.guards := by
  cases p <;> rfl

@[simp] theorem setPort_permit (s : State) (p : Port) (ps : PortState) : (s.setPort p ps).permit = s.permit := by
  cases p <;> rfl

@[simp] theorem setPort_permitPeriod (s : State) (p : Port) (ps : PortState) : (s.setPort p ps).permitPeriod = s.permitPeriod := by
  cases p <;> rfl

@[simp] theorem setPort_intervalNext (s : State) (p : Port) (ps : PortState) : (s.setPort p ps).intervalNext = s.intervalNext := by
  cases p <;> rfl

@[simp] theorem setPort_alert (s : State) (p : Port) (ps : PortState) : (s.setPort p ps).alert = s.alert := by
  cases p <;> rfl

@[simp] theorem setPort_loads (s : State) (p : Port) (ps : PortState) : (s.setPort p ps).loads = s.loads := by
  cases p <;> rfl

@[simp] theorem setPort_bankA (s : State) (p : Port) (ps : PortState) : (s.setPort p ps).bankA = s.bankA := by
  cases p <;> rfl

@[simp] theorem setPort_bankB (s : State) (p : Port) (ps : PortState) : (s.setPort p ps).bankB = s.bankB := by
  cases p <;> rfl

@[simp] theorem setPort_active (s : State) (p : Port) (ps : PortState) : (s.setPort p ps).active = s.active := by
  cases p <;> rfl

@[simp] theorem setPort_lock (s : State) (p : Port) (ps : PortState) : (s.setPort p ps).lock = s.lock := by
  cases p <;> rfl

@[simp] theorem setPort_mode (s : State) (p : Port) (ps : PortState) : (s.setPort p ps).mode = s.mode := by
  cases p <;> rfl

@[simp] theorem setPort_startOutcome (s : State) (p : Port) (ps : PortState) : (s.setPort p ps).startOutcome = s.startOutcome := by
  cases p <;> rfl

@[simp] theorem setPort_station (s : State) (p : Port) (ps : PortState) : (s.setPort p ps).station = s.station := by
  cases p <;> rfl

@[simp] theorem setPort_settings (s : State) (p : Port) (ps : PortState) : (s.setPort p ps).settings = s.settings := by
  cases p <;> rfl

@[simp] theorem setPort_tokenFailures (s : State) (p : Port) (ps : PortState) : (s.setPort p ps).tokenFailures = s.tokenFailures := by
  cases p <;> rfl

@[simp] theorem setPort_lockoutEnd (s : State) (p : Port) (ps : PortState) : (s.setPort p ps).lockoutEnd = s.lockoutEnd := by
  cases p <;> rfl

@[simp] theorem setPort_management (s : State) (p : Port) (ps : PortState) : (s.setPort p ps).management = s.management := by
  cases p <;> rfl

@[simp] theorem setPort_events (s : State) (p : Port) (ps : PortState) : (s.setPort p ps).events = s.events := by
  cases p <;> rfl

@[simp] theorem setPort_overflow (s : State) (p : Port) (ps : PortState) : (s.setPort p ps).overflow = s.overflow := by
  cases p <;> rfl

@[simp] theorem setPort_save (s : State) (p : Port) (ps : PortState) : (s.setPort p ps).save = s.save := by
  cases p <;> rfl

@[simp] theorem setPort_lastSave (s : State) (p : Port) (ps : PortState) : (s.setPort p ps).lastSave = s.lastSave := by
  cases p <;> rfl

@[simp] theorem setPort_restartPending (s : State) (p : Port) (ps : PortState) : (s.setPort p ps).restartPending = s.restartPending := by
  cases p <;> rfl

@[simp] theorem setPort_memory (s : State) (p : Port) (ps : PortState) : (s.setPort p ps).memory = s.memory := by
  cases p <;> rfl

@[simp] theorem setPort_freeValues (s : State) (p : Port) (ps : PortState) : (s.setPort p ps).freeValues = s.freeValues := by
  cases p <;> rfl

@[simp] theorem setPort_pending (s : State) (p : Port) (ps : PortState) : (s.setPort p ps).pending = s.pending := by
  cases p <;> rfl

/-! ### A link indication -/

@[simp] theorem setLink_resetN (s : State) (p : Port) (high : Bool) : (s.setLink p high).resetN = s.resetN := by
  cases p <;> rfl

@[simp] theorem setLink_chgPermit (s : State) (p : Port) (high : Bool) : (s.setLink p high).chgPermit = s.chgPermit := by
  cases p <;> rfl

@[simp] theorem setLink_clock (s : State) (p : Port) (high : Bool) : (s.setLink p high).clock = s.clock := by
  cases p <;> rfl

@[simp] theorem setLink_net (s : State) (p : Port) (high : Bool) : (s.setLink p high).net = s.net := by
  cases p <;> rfl

@[simp] theorem setLink_cell (s : State) (p : Port) (high : Bool) : (s.setLink p high).cell = s.cell := by
  cases p <;> rfl

@[simp] theorem setLink_decisions (s : State) (p : Port) (high : Bool) : (s.setLink p high).decisions = s.decisions := by
  cases p <;> rfl

@[simp] theorem setLink_outstanding (s : State) (p : Port) (high : Bool) : (s.setLink p high).outstanding = s.outstanding := by
  cases p <;> rfl

@[simp] theorem setLink_shadow (s : State) (p : Port) (high : Bool) : (s.setLink p high).shadow = s.shadow := by
  cases p <;> rfl

@[simp] theorem setLink_guards (s : State) (p : Port) (high : Bool) : (s.setLink p high).guards = s.guards := by
  cases p <;> rfl

@[simp] theorem setLink_permit (s : State) (p : Port) (high : Bool) : (s.setLink p high).permit = s.permit := by
  cases p <;> rfl

@[simp] theorem setLink_permitPeriod (s : State) (p : Port) (high : Bool) : (s.setLink p high).permitPeriod = s.permitPeriod := by
  cases p <;> rfl

@[simp] theorem setLink_intervalNext (s : State) (p : Port) (high : Bool) : (s.setLink p high).intervalNext = s.intervalNext := by
  cases p <;> rfl

@[simp] theorem setLink_alert (s : State) (p : Port) (high : Bool) : (s.setLink p high).alert = s.alert := by
  cases p <;> rfl

@[simp] theorem setLink_loads (s : State) (p : Port) (high : Bool) : (s.setLink p high).loads = s.loads := by
  cases p <;> rfl

@[simp] theorem setLink_bankA (s : State) (p : Port) (high : Bool) : (s.setLink p high).bankA = s.bankA := by
  cases p <;> rfl

@[simp] theorem setLink_bankB (s : State) (p : Port) (high : Bool) : (s.setLink p high).bankB = s.bankB := by
  cases p <;> rfl

@[simp] theorem setLink_active (s : State) (p : Port) (high : Bool) : (s.setLink p high).active = s.active := by
  cases p <;> rfl

@[simp] theorem setLink_lock (s : State) (p : Port) (high : Bool) : (s.setLink p high).lock = s.lock := by
  cases p <;> rfl

@[simp] theorem setLink_mode (s : State) (p : Port) (high : Bool) : (s.setLink p high).mode = s.mode := by
  cases p <;> rfl

@[simp] theorem setLink_startOutcome (s : State) (p : Port) (high : Bool) : (s.setLink p high).startOutcome = s.startOutcome := by
  cases p <;> rfl

@[simp] theorem setLink_station (s : State) (p : Port) (high : Bool) : (s.setLink p high).station = s.station := by
  cases p <;> rfl

@[simp] theorem setLink_settings (s : State) (p : Port) (high : Bool) : (s.setLink p high).settings = s.settings := by
  cases p <;> rfl

@[simp] theorem setLink_tokenFailures (s : State) (p : Port) (high : Bool) : (s.setLink p high).tokenFailures = s.tokenFailures := by
  cases p <;> rfl

@[simp] theorem setLink_lockoutEnd (s : State) (p : Port) (high : Bool) : (s.setLink p high).lockoutEnd = s.lockoutEnd := by
  cases p <;> rfl

@[simp] theorem setLink_management (s : State) (p : Port) (high : Bool) : (s.setLink p high).management = s.management := by
  cases p <;> rfl

@[simp] theorem setLink_events (s : State) (p : Port) (high : Bool) : (s.setLink p high).events = s.events := by
  cases p <;> rfl

@[simp] theorem setLink_overflow (s : State) (p : Port) (high : Bool) : (s.setLink p high).overflow = s.overflow := by
  cases p <;> rfl

@[simp] theorem setLink_save (s : State) (p : Port) (high : Bool) : (s.setLink p high).save = s.save := by
  cases p <;> rfl

@[simp] theorem setLink_lastSave (s : State) (p : Port) (high : Bool) : (s.setLink p high).lastSave = s.lastSave := by
  cases p <;> rfl

@[simp] theorem setLink_restartPending (s : State) (p : Port) (high : Bool) : (s.setLink p high).restartPending = s.restartPending := by
  cases p <;> rfl

@[simp] theorem setLink_memory (s : State) (p : Port) (high : Bool) : (s.setLink p high).memory = s.memory := by
  cases p <;> rfl

@[simp] theorem setLink_freeValues (s : State) (p : Port) (high : Bool) : (s.setLink p high).freeValues = s.freeValues := by
  cases p <;> rfl

@[simp] theorem setLink_pending (s : State) (p : Port) (high : Bool) : (s.setLink p high).pending = s.pending := by
  cases p <;> rfl

/-! ### A guard replaced -/

@[simp] theorem setGuard_resetN (s : State) (i : Fin 16) (g : Option SlotGuard) :
    (s.setGuard i g).resetN = s.resetN := rfl

@[simp] theorem setGuard_netLink (s : State) (i : Fin 16) (g : Option SlotGuard) :
    (s.setGuard i g).netLink = s.netLink := rfl

@[simp] theorem setGuard_cellLink (s : State) (i : Fin 16) (g : Option SlotGuard) :
    (s.setGuard i g).cellLink = s.cellLink := rfl

@[simp] theorem setGuard_chgPermit (s : State) (i : Fin 16) (g : Option SlotGuard) :
    (s.setGuard i g).chgPermit = s.chgPermit := rfl

@[simp] theorem setGuard_clock (s : State) (i : Fin 16) (g : Option SlotGuard) :
    (s.setGuard i g).clock = s.clock := rfl

@[simp] theorem setGuard_net (s : State) (i : Fin 16) (g : Option SlotGuard) :
    (s.setGuard i g).net = s.net := rfl

@[simp] theorem setGuard_cell (s : State) (i : Fin 16) (g : Option SlotGuard) :
    (s.setGuard i g).cell = s.cell := rfl

@[simp] theorem setGuard_decisions (s : State) (i : Fin 16) (g : Option SlotGuard) :
    (s.setGuard i g).decisions = s.decisions := rfl

@[simp] theorem setGuard_outstanding (s : State) (i : Fin 16) (g : Option SlotGuard) :
    (s.setGuard i g).outstanding = s.outstanding := rfl

@[simp] theorem setGuard_shadow (s : State) (i : Fin 16) (g : Option SlotGuard) :
    (s.setGuard i g).shadow = s.shadow := rfl

@[simp] theorem setGuard_guards (s : State) (i : Fin 16) (g : Option SlotGuard) :
    (s.setGuard i g).guards = s.guards.set i g := rfl

@[simp] theorem setGuard_permit (s : State) (i : Fin 16) (g : Option SlotGuard) :
    (s.setGuard i g).permit = s.permit := rfl

@[simp] theorem setGuard_permitPeriod (s : State) (i : Fin 16) (g : Option SlotGuard) :
    (s.setGuard i g).permitPeriod = s.permitPeriod := rfl

@[simp] theorem setGuard_intervalNext (s : State) (i : Fin 16) (g : Option SlotGuard) :
    (s.setGuard i g).intervalNext = s.intervalNext := rfl

@[simp] theorem setGuard_alert (s : State) (i : Fin 16) (g : Option SlotGuard) :
    (s.setGuard i g).alert = s.alert := rfl

@[simp] theorem setGuard_loads (s : State) (i : Fin 16) (g : Option SlotGuard) :
    (s.setGuard i g).loads = s.loads := rfl

@[simp] theorem setGuard_bankA (s : State) (i : Fin 16) (g : Option SlotGuard) :
    (s.setGuard i g).bankA = s.bankA := rfl

@[simp] theorem setGuard_bankB (s : State) (i : Fin 16) (g : Option SlotGuard) :
    (s.setGuard i g).bankB = s.bankB := rfl

@[simp] theorem setGuard_active (s : State) (i : Fin 16) (g : Option SlotGuard) :
    (s.setGuard i g).active = s.active := rfl

@[simp] theorem setGuard_lock (s : State) (i : Fin 16) (g : Option SlotGuard) :
    (s.setGuard i g).lock = s.lock := rfl

@[simp] theorem setGuard_mode (s : State) (i : Fin 16) (g : Option SlotGuard) :
    (s.setGuard i g).mode = s.mode := rfl

@[simp] theorem setGuard_startOutcome (s : State) (i : Fin 16) (g : Option SlotGuard) :
    (s.setGuard i g).startOutcome = s.startOutcome := rfl

@[simp] theorem setGuard_station (s : State) (i : Fin 16) (g : Option SlotGuard) :
    (s.setGuard i g).station = s.station := rfl

@[simp] theorem setGuard_settings (s : State) (i : Fin 16) (g : Option SlotGuard) :
    (s.setGuard i g).settings = s.settings := rfl

@[simp] theorem setGuard_tokenFailures (s : State) (i : Fin 16) (g : Option SlotGuard) :
    (s.setGuard i g).tokenFailures = s.tokenFailures := rfl

@[simp] theorem setGuard_lockoutEnd (s : State) (i : Fin 16) (g : Option SlotGuard) :
    (s.setGuard i g).lockoutEnd = s.lockoutEnd := rfl

@[simp] theorem setGuard_management (s : State) (i : Fin 16) (g : Option SlotGuard) :
    (s.setGuard i g).management = s.management := rfl

@[simp] theorem setGuard_events (s : State) (i : Fin 16) (g : Option SlotGuard) :
    (s.setGuard i g).events = s.events := rfl

@[simp] theorem setGuard_overflow (s : State) (i : Fin 16) (g : Option SlotGuard) :
    (s.setGuard i g).overflow = s.overflow := rfl

@[simp] theorem setGuard_save (s : State) (i : Fin 16) (g : Option SlotGuard) :
    (s.setGuard i g).save = s.save := rfl

@[simp] theorem setGuard_lastSave (s : State) (i : Fin 16) (g : Option SlotGuard) :
    (s.setGuard i g).lastSave = s.lastSave := rfl

@[simp] theorem setGuard_restartPending (s : State) (i : Fin 16) (g : Option SlotGuard) :
    (s.setGuard i g).restartPending = s.restartPending := rfl

@[simp] theorem setGuard_memory (s : State) (i : Fin 16) (g : Option SlotGuard) :
    (s.setGuard i g).memory = s.memory := rfl

@[simp] theorem setGuard_freeValues (s : State) (i : Fin 16) (g : Option SlotGuard) :
    (s.setGuard i g).freeValues = s.freeValues := rfl

@[simp] theorem setGuard_pending (s : State) (i : Fin 16) (g : Option SlotGuard) :
    (s.setGuard i g).pending = s.pending := rfl

/-! ### A Download Record slot replaced -/

@[simp] theorem setLoad_resetN (s : State) (d : Fin 4) (r : Option Download) :
    (s.setLoad d r).resetN = s.resetN := rfl

@[simp] theorem setLoad_netLink (s : State) (d : Fin 4) (r : Option Download) :
    (s.setLoad d r).netLink = s.netLink := rfl

@[simp] theorem setLoad_cellLink (s : State) (d : Fin 4) (r : Option Download) :
    (s.setLoad d r).cellLink = s.cellLink := rfl

@[simp] theorem setLoad_chgPermit (s : State) (d : Fin 4) (r : Option Download) :
    (s.setLoad d r).chgPermit = s.chgPermit := rfl

@[simp] theorem setLoad_clock (s : State) (d : Fin 4) (r : Option Download) :
    (s.setLoad d r).clock = s.clock := rfl

@[simp] theorem setLoad_net (s : State) (d : Fin 4) (r : Option Download) :
    (s.setLoad d r).net = s.net := rfl

@[simp] theorem setLoad_cell (s : State) (d : Fin 4) (r : Option Download) :
    (s.setLoad d r).cell = s.cell := rfl

@[simp] theorem setLoad_decisions (s : State) (d : Fin 4) (r : Option Download) :
    (s.setLoad d r).decisions = s.decisions := rfl

@[simp] theorem setLoad_outstanding (s : State) (d : Fin 4) (r : Option Download) :
    (s.setLoad d r).outstanding = s.outstanding := rfl

@[simp] theorem setLoad_shadow (s : State) (d : Fin 4) (r : Option Download) :
    (s.setLoad d r).shadow = s.shadow := rfl

@[simp] theorem setLoad_guards (s : State) (d : Fin 4) (r : Option Download) :
    (s.setLoad d r).guards = s.guards := rfl

@[simp] theorem setLoad_permit (s : State) (d : Fin 4) (r : Option Download) :
    (s.setLoad d r).permit = s.permit := rfl

@[simp] theorem setLoad_permitPeriod (s : State) (d : Fin 4) (r : Option Download) :
    (s.setLoad d r).permitPeriod = s.permitPeriod := rfl

@[simp] theorem setLoad_intervalNext (s : State) (d : Fin 4) (r : Option Download) :
    (s.setLoad d r).intervalNext = s.intervalNext := rfl

@[simp] theorem setLoad_alert (s : State) (d : Fin 4) (r : Option Download) :
    (s.setLoad d r).alert = s.alert := rfl

@[simp] theorem setLoad_loads (s : State) (d : Fin 4) (r : Option Download) :
    (s.setLoad d r).loads = s.loads.set d r := rfl

@[simp] theorem setLoad_bankA (s : State) (d : Fin 4) (r : Option Download) :
    (s.setLoad d r).bankA = s.bankA := rfl

@[simp] theorem setLoad_bankB (s : State) (d : Fin 4) (r : Option Download) :
    (s.setLoad d r).bankB = s.bankB := rfl

@[simp] theorem setLoad_active (s : State) (d : Fin 4) (r : Option Download) :
    (s.setLoad d r).active = s.active := rfl

@[simp] theorem setLoad_lock (s : State) (d : Fin 4) (r : Option Download) :
    (s.setLoad d r).lock = s.lock := rfl

@[simp] theorem setLoad_mode (s : State) (d : Fin 4) (r : Option Download) :
    (s.setLoad d r).mode = s.mode := rfl

@[simp] theorem setLoad_startOutcome (s : State) (d : Fin 4) (r : Option Download) :
    (s.setLoad d r).startOutcome = s.startOutcome := rfl

@[simp] theorem setLoad_station (s : State) (d : Fin 4) (r : Option Download) :
    (s.setLoad d r).station = s.station := rfl

@[simp] theorem setLoad_settings (s : State) (d : Fin 4) (r : Option Download) :
    (s.setLoad d r).settings = s.settings := rfl

@[simp] theorem setLoad_tokenFailures (s : State) (d : Fin 4) (r : Option Download) :
    (s.setLoad d r).tokenFailures = s.tokenFailures := rfl

@[simp] theorem setLoad_lockoutEnd (s : State) (d : Fin 4) (r : Option Download) :
    (s.setLoad d r).lockoutEnd = s.lockoutEnd := rfl

@[simp] theorem setLoad_management (s : State) (d : Fin 4) (r : Option Download) :
    (s.setLoad d r).management = s.management := rfl

@[simp] theorem setLoad_events (s : State) (d : Fin 4) (r : Option Download) :
    (s.setLoad d r).events = s.events := rfl

@[simp] theorem setLoad_overflow (s : State) (d : Fin 4) (r : Option Download) :
    (s.setLoad d r).overflow = s.overflow := rfl

@[simp] theorem setLoad_save (s : State) (d : Fin 4) (r : Option Download) :
    (s.setLoad d r).save = s.save := rfl

@[simp] theorem setLoad_lastSave (s : State) (d : Fin 4) (r : Option Download) :
    (s.setLoad d r).lastSave = s.lastSave := rfl

@[simp] theorem setLoad_restartPending (s : State) (d : Fin 4) (r : Option Download) :
    (s.setLoad d r).restartPending = s.restartPending := rfl

@[simp] theorem setLoad_memory (s : State) (d : Fin 4) (r : Option Download) :
    (s.setLoad d r).memory = s.memory := rfl

@[simp] theorem setLoad_freeValues (s : State) (d : Fin 4) (r : Option Download) :
    (s.setLoad d r).freeValues = s.freeValues := rfl

@[simp] theorem setLoad_pending (s : State) (d : Fin 4) (r : Option Download) :
    (s.setLoad d r).pending = s.pending := rfl

/-! ### The inactive bank replaced -/

@[simp] theorem setInactiveBank_resetN (s : State) (b : Bank) : (s.setInactiveBank b).resetN = s.resetN := by
  unfold State.setInactiveBank; cases s.active <;> rfl

@[simp] theorem setInactiveBank_netLink (s : State) (b : Bank) : (s.setInactiveBank b).netLink = s.netLink := by
  unfold State.setInactiveBank; cases s.active <;> rfl

@[simp] theorem setInactiveBank_cellLink (s : State) (b : Bank) : (s.setInactiveBank b).cellLink = s.cellLink := by
  unfold State.setInactiveBank; cases s.active <;> rfl

@[simp] theorem setInactiveBank_chgPermit (s : State) (b : Bank) : (s.setInactiveBank b).chgPermit = s.chgPermit := by
  unfold State.setInactiveBank; cases s.active <;> rfl

@[simp] theorem setInactiveBank_clock (s : State) (b : Bank) : (s.setInactiveBank b).clock = s.clock := by
  unfold State.setInactiveBank; cases s.active <;> rfl

@[simp] theorem setInactiveBank_net (s : State) (b : Bank) : (s.setInactiveBank b).net = s.net := by
  unfold State.setInactiveBank; cases s.active <;> rfl

@[simp] theorem setInactiveBank_cell (s : State) (b : Bank) : (s.setInactiveBank b).cell = s.cell := by
  unfold State.setInactiveBank; cases s.active <;> rfl

@[simp] theorem setInactiveBank_decisions (s : State) (b : Bank) : (s.setInactiveBank b).decisions = s.decisions := by
  unfold State.setInactiveBank; cases s.active <;> rfl

@[simp] theorem setInactiveBank_outstanding (s : State) (b : Bank) : (s.setInactiveBank b).outstanding = s.outstanding := by
  unfold State.setInactiveBank; cases s.active <;> rfl

@[simp] theorem setInactiveBank_shadow (s : State) (b : Bank) : (s.setInactiveBank b).shadow = s.shadow := by
  unfold State.setInactiveBank; cases s.active <;> rfl

@[simp] theorem setInactiveBank_guards (s : State) (b : Bank) : (s.setInactiveBank b).guards = s.guards := by
  unfold State.setInactiveBank; cases s.active <;> rfl

@[simp] theorem setInactiveBank_permit (s : State) (b : Bank) : (s.setInactiveBank b).permit = s.permit := by
  unfold State.setInactiveBank; cases s.active <;> rfl

@[simp] theorem setInactiveBank_permitPeriod (s : State) (b : Bank) : (s.setInactiveBank b).permitPeriod = s.permitPeriod := by
  unfold State.setInactiveBank; cases s.active <;> rfl

@[simp] theorem setInactiveBank_intervalNext (s : State) (b : Bank) : (s.setInactiveBank b).intervalNext = s.intervalNext := by
  unfold State.setInactiveBank; cases s.active <;> rfl

@[simp] theorem setInactiveBank_alert (s : State) (b : Bank) : (s.setInactiveBank b).alert = s.alert := by
  unfold State.setInactiveBank; cases s.active <;> rfl

@[simp] theorem setInactiveBank_loads (s : State) (b : Bank) : (s.setInactiveBank b).loads = s.loads := by
  unfold State.setInactiveBank; cases s.active <;> rfl

@[simp] theorem setInactiveBank_active (s : State) (b : Bank) : (s.setInactiveBank b).active = s.active := by
  unfold State.setInactiveBank; cases s.active <;> rfl

@[simp] theorem setInactiveBank_lock (s : State) (b : Bank) : (s.setInactiveBank b).lock = s.lock := by
  unfold State.setInactiveBank; cases s.active <;> rfl

@[simp] theorem setInactiveBank_mode (s : State) (b : Bank) : (s.setInactiveBank b).mode = s.mode := by
  unfold State.setInactiveBank; cases s.active <;> rfl

@[simp] theorem setInactiveBank_startOutcome (s : State) (b : Bank) : (s.setInactiveBank b).startOutcome = s.startOutcome := by
  unfold State.setInactiveBank; cases s.active <;> rfl

@[simp] theorem setInactiveBank_station (s : State) (b : Bank) : (s.setInactiveBank b).station = s.station := by
  unfold State.setInactiveBank; cases s.active <;> rfl

@[simp] theorem setInactiveBank_settings (s : State) (b : Bank) : (s.setInactiveBank b).settings = s.settings := by
  unfold State.setInactiveBank; cases s.active <;> rfl

@[simp] theorem setInactiveBank_tokenFailures (s : State) (b : Bank) : (s.setInactiveBank b).tokenFailures = s.tokenFailures := by
  unfold State.setInactiveBank; cases s.active <;> rfl

@[simp] theorem setInactiveBank_lockoutEnd (s : State) (b : Bank) : (s.setInactiveBank b).lockoutEnd = s.lockoutEnd := by
  unfold State.setInactiveBank; cases s.active <;> rfl

@[simp] theorem setInactiveBank_management (s : State) (b : Bank) : (s.setInactiveBank b).management = s.management := by
  unfold State.setInactiveBank; cases s.active <;> rfl

@[simp] theorem setInactiveBank_events (s : State) (b : Bank) : (s.setInactiveBank b).events = s.events := by
  unfold State.setInactiveBank; cases s.active <;> rfl

@[simp] theorem setInactiveBank_overflow (s : State) (b : Bank) : (s.setInactiveBank b).overflow = s.overflow := by
  unfold State.setInactiveBank; cases s.active <;> rfl

@[simp] theorem setInactiveBank_save (s : State) (b : Bank) : (s.setInactiveBank b).save = s.save := by
  unfold State.setInactiveBank; cases s.active <;> rfl

@[simp] theorem setInactiveBank_lastSave (s : State) (b : Bank) : (s.setInactiveBank b).lastSave = s.lastSave := by
  unfold State.setInactiveBank; cases s.active <;> rfl

@[simp] theorem setInactiveBank_restartPending (s : State) (b : Bank) : (s.setInactiveBank b).restartPending = s.restartPending := by
  unfold State.setInactiveBank; cases s.active <;> rfl

@[simp] theorem setInactiveBank_memory (s : State) (b : Bank) : (s.setInactiveBank b).memory = s.memory := by
  unfold State.setInactiveBank; cases s.active <;> rfl

@[simp] theorem setInactiveBank_freeValues (s : State) (b : Bank) : (s.setInactiveBank b).freeValues = s.freeValues := by
  unfold State.setInactiveBank; cases s.active <;> rfl

@[simp] theorem setInactiveBank_pending (s : State) (b : Bank) : (s.setInactiveBank b).pending = s.pending := by
  unfold State.setInactiveBank; cases s.active <;> rfl

end Sys2Proof.Laws
end

