-- ==== Sys2Proof/Laws/Bytes.lean ====
section
/-! SUPPORT. Runs of bytes: lengths, and numbers read back from the bytes they are written as. -/

namespace Sys2Proof.Laws

open Sys2Proof Sys2Proof.Machine

@[simp] theorem beBytes_length (n v : Nat) : (beBytes n v).length = n := by
  induction n with
  | zero => rfl
  | succ n ih => simp [beBytes, ih]

@[simp] theorem leBytes_length (n v : Nat) : (leBytes n v).length = n := by simp [leBytes]

@[simp] theorem zeros_length (n : Nat) : (zeros n).length = n := by simp [zeros]

@[simp] theorem fcsBytes_length (frame : List Byte) : (fcsBytes frame).length = 4 := by simp [fcsBytes]

@[simp] theorem withFcs_length (frame : List Byte) : (withFcs frame).length = frame.length + 4 := by simp [withFcs]

/-- A frame with a fresh FCS has its bytes back without it. -/
@[simp] theorem withoutFcs_withFcs (frame : List Byte) : withoutFcs (withFcs frame) = frame := by
  simp [withoutFcs, withFcs]

/-- A frame with a fresh FCS passes the FCS test (R3, R6). -/
@[simp] theorem fcsOk_withFcs (frame : List Byte) : fcsOk (withFcs frame) = true := by
  unfold fcsOk
  rw [withoutFcs_withFcs]
  simp [withFcs]

theorem beNat_append (l : List Byte) (b : Byte) : beNat (l ++ [b]) = beNat l * 256 + b.toNat := by
  simp [beNat]

theorem beNat_foldl (l : List Byte) (a : Nat) :
    l.foldl (fun a b => a * 256 + b.toNat) a = a * 256 ^ l.length + beNat l := by
  induction l generalizing a with
  | nil => simp [beNat]
  | cons x rest ih =>
    unfold beNat
    rw [List.foldl_cons, ih, List.foldl_cons, ih (0 * 256 + x.toNat), List.length_cons, pow_succ]
    ring

theorem beNat_cons (b : Byte) (l : List Byte) : beNat (b :: l) = b.toNat * 256 ^ l.length + beNat l := by
  rw [show beNat (b :: l) = l.foldl (fun a b => a * 256 + b.toNat) (0 * 256 + b.toNat) from rfl, beNat_foldl]
  simp

/-- The number that the low bytes of a number spell. -/
theorem beNat_beBytes (n v : Nat) : beNat (beBytes n v) = v % 256 ^ n := by
  induction n with
  | zero => simp [beBytes, beNat, Nat.mod_one]
  | succ n ih =>
    rw [beBytes, beNat_cons, ih, beBytes_length, BitVec.toNat_ofNat]
    have h := Nat.mod_pow_succ (b := 256) (k := n) (x := v)
    rw [h]
    ring

/-- A number of the width is read back whole. -/
theorem beNat_beBytes_of_lt {n v : Nat} (h : v < 256 ^ n) : beNat (beBytes n v) = v := by
  rw [beNat_beBytes, Nat.mod_eq_of_lt h]

/-- A field at the front of a run. -/
theorem slice_append_left (a b : List Byte) : slice (a ++ b) 0 a.length = a := by simp [slice]

/-- A field behind a run of known length. -/
theorem slice_append_right (a b : List Byte) (k n : Nat) : slice (a ++ b) (a.length + k) n = slice b k n := by
  simp [slice]

theorem byteAt_append_left (a b : List Byte) (i : Nat) (h : i < a.length) : byteAt (a ++ b) i = byteAt a i := by
  unfold byteAt
  simp only [List.getD_eq_getElem?_getD]
  rw [List.getElem?_append_left h]

theorem byteAt_append_right (a b : List Byte) (i : Nat) : byteAt (a ++ b) (a.length + i) = byteAt b i := by
  unfold byteAt
  simp only [List.getD_eq_getElem?_getD]
  rw [List.getElem?_append_right (by omega)]
  simp

/-- A splice keeps the length. -/
@[simp] theorem splice_length (l : List Byte) (off : Nat) (new : List Byte) : (splice l off new).length = l.length := by
  simp only [splice, List.length_append, List.length_take, List.length_drop]
  omega

/-- What is spliced in is read back. -/
theorem slice_splice (l : List Byte) (off : Nat) (new : List Byte) (h : off + new.length ≤ l.length) :
    slice (splice l off new) off new.length = new := by
  unfold slice splice
  rw [List.drop_append_of_le_length (by simp; omega), List.drop_of_length_le (by simp), List.nil_append,
    List.take_of_length_le (show new.length ≤ l.length - off by omega), List.take_left]

/-- A splice changes no byte outside its place. -/
theorem byteAt_splice (l : List Byte) (off : Nat) (new : List Byte) (h : off + new.length ≤ l.length) (i : Nat)
    (hi : i < off ∨ off + new.length ≤ i) : byteAt (splice l off new) i = byteAt l i := by
  unfold byteAt splice
  rw [List.take_of_length_le (show new.length ≤ l.length - off by omega)]
  simp only [List.getD_eq_getElem?_getD]
  rcases hi with hi | hi
  · rw [List.getElem?_append_left (by simp; omega), List.getElem?_take_of_lt hi]
  · rw [List.getElem?_append_right (by simp; omega), List.getElem?_append_right (by simp; omega), List.getElem?_drop]
    congr 2
    simp
    omega

/-- One's complement addition is addition modulo FFFFH (R70). -/
theorem onesAdd_mod (a b : Nat) : onesAdd a b % 0xFFFF = (a + b) % 0xFFFF := by
  unfold onesAdd
  split <;> omega

/-- A count saturates at FFFFFFFFH and never goes down (R9). -/
theorem satAdd_toNat (c : BitVec 32) (n : Nat) : (satAdd c n).toNat = min (c.toNat + n) 0xFFFFFFFF := by
  unfold satAdd
  split
  · rw [BitVec.toNat_ofNat, Nat.mod_eq_of_lt (by omega), Nat.min_eq_left (by omega)]
  · rw [Nat.min_eq_right (by omega)]; rfl

end Sys2Proof.Laws
end

