-- ==== Sys2Proof/Laws/Ops.lean ====
section
/-! SUPPORT. What each shared operation of Ops can do, said once: records, ports, the arbiter, replies, notices, the
reset. -/

namespace Sys2Proof.Laws

open Sys2Proof Sys2Proof.Machine

/-! ### Ports -/

@[simp] theorem port_setPort_self (s : State) (p : Port) (ps : PortState) : (s.setPort p ps).port p = ps := by
  cases p <;> rfl

@[simp] theorem port_setPort_other (s : State) (p : Port) (ps : PortState) :
    (s.setPort p ps).port (otherPort p) = s.port (otherPort p) := by
  cases p <;> rfl

@[simp] theorem setPort_port (s : State) (p : Port) : s.setPort p (s.port p) = s := by
  cases p <;> rfl

@[simp] theorem setPort_setPort (s : State) (p : Port) (a b : PortState) :
    (s.setPort p a).setPort p b = s.setPort p b := by
  cases p <;> rfl

@[simp] theorem record_port (s : State) (e : EventRecord) (p : Port) : (s.record e).port p = s.port p := by
  cases p <;> simp [State.port]

@[simp] theorem setLoad_port (s : State) (d : Fin 4) (r : Option Download) (p : Port) :
    (s.setLoad d r).port p = s.port p := by
  cases p <;> rfl

@[simp] theorem setGuard_port (s : State) (i : Fin 16) (g : Option SlotGuard) (p : Port) :
    (s.setGuard i g).port p = s.port p := by
  cases p <;> rfl

@[simp] theorem otherPort_otherPort (p : Port) : otherPort (otherPort p) = p := by cases p <;> rfl

/-! ### The transmit arbiter (R8) -/

/-- All that a grant can do: nothing, or one head moved into a FREE transmitter of a port that is UP. -/
theorem grant_cases (ps : PortState) :
    grant ps = ps ∨
    (ps.up = true ∧ ps.transmitter = .free ∧
      ((∃ f fs, ps.forwardQueue = f :: fs ∧ (ps.replyQueue = [] ∨ ps.lastGrant = .reply) ∧
          grant ps = { ps with forwardQueue := fs, transmitter := .forward f, lastGrant := .forward }) ∨
        (∃ r rs, ps.replyQueue = r :: rs ∧ (ps.forwardQueue = [] ∨ ps.lastGrant = .forward) ∧
          grant ps = { ps with replyQueue := rs, transmitter := .reply r, lastGrant := .reply }))) := by
  unfold grant
  split
  · rename_i h
    split
    · rename_i hf hr hl
      exact .inr ⟨h.1, h.2, .inr ⟨_, _, hr, .inr hl, rfl⟩⟩
    · rename_i hf hr hl
      exact .inr ⟨h.1, h.2, .inl ⟨_, _, hf, .inr hl, rfl⟩⟩
    · rename_i hf hr
      exact .inr ⟨h.1, h.2, .inl ⟨_, _, hf, .inl hr, rfl⟩⟩
    · rename_i hf hr
      exact .inr ⟨h.1, h.2, .inr ⟨_, _, hr, .inl hf, rfl⟩⟩
    · exact .inl rfl
  · exact .inl rfl

@[simp] theorem grant_up (ps : PortState) : (grant ps).up = ps.up := by
  rcases grant_cases ps with h | ⟨-, -, ⟨f, fs, -, -, h⟩ | ⟨r, rs, -, -, h⟩⟩ <;> rw [h]

/-- A grant changes no counter. -/
theorem grant_counters (ps : PortState) :
    (grant ps).received = ps.received ∧ (grant ps).forwarded = ps.forwarded ∧
    (grant ps).queueFullDrops = ps.queueFullDrops ∧ (grant ps).formatDrops = ps.formatDrops ∧
    (grant ps).guardDrops = ps.guardDrops ∧ (grant ps).linkDrops = ps.linkDrops := by
  rcases grant_cases ps with h | ⟨-, -, ⟨f, fs, -, -, h⟩ | ⟨r, rs, -, -, h⟩⟩ <;> rw [h] <;> simp

/-- A grant makes no queue longer. -/
theorem grant_lengths (ps : PortState) :
    (grant ps).forwardQueue.length ≤ ps.forwardQueue.length ∧ (grant ps).replyQueue.length ≤ ps.replyQueue.length := by
  rcases grant_cases ps with h | ⟨-, -, ⟨f, fs, hf, -, h⟩ | ⟨r, rs, hr, -, h⟩⟩ <;> rw [h] <;> simp [*]

/-- A frame placed makes the forward queue at most one longer and the reply queue no longer (R6). -/
theorem placeForward_lengths (ps : PortState) (frame : List Byte) :
    (placeForward ps frame).forwardQueue.length ≤ ps.forwardQueue.length + 1 ∧
    (placeForward ps frame).replyQueue.length ≤ ps.replyQueue.length := by
  unfold placeForward
  dsimp only
  split
  · have h := grant_lengths { ps with forwardQueue := ps.forwardQueue ++ [frame] }
    simpa using h
  · simp

/-- A reply placed makes the reply queue at most one longer and the forward queue no longer (R7). -/
theorem placeReply_lengths (ps : PortState) (r : Reply) :
    (placeReply ps r).replyQueue.length ≤ ps.replyQueue.length + 1 ∧
    (placeReply ps r).forwardQueue.length ≤ ps.forwardQueue.length := by
  unfold placeReply
  dsimp only
  split
  · have h := grant_lengths { ps with replyQueue := ps.replyQueue ++ [r] }
    simpa [and_comm] using h
  · simp

@[simp] theorem placeForward_up (ps : PortState) (frame : List Byte) : (placeForward ps frame).up = ps.up := by
  unfold placeForward; dsimp only; split <;> simp

@[simp] theorem placeReply_up (ps : PortState) (r : Reply) : (placeReply ps r).up = ps.up := by
  unfold placeReply; dsimp only; split <;> simp

/-! ### The Event Queue (R159) -/

/-- All that adding a record can do. -/
theorem record_cases (s : State) (e : EventRecord) :
    (s.events.length < 64 ∧ s.record e = { s with events := s.events ++ [e] }) ∨
    (64 ≤ s.events.length ∧ s.record e = { s with overflow := true }) := by
  unfold State.record
  split
  · exact .inl ⟨‹_›, rfl⟩
  · exact .inr ⟨by omega, rfl⟩

/-- A record leaves at most 64 in the queue, if there were at most 64. -/
theorem record_events_length (s : State) (e : EventRecord) (h : s.events.length ≤ 64) :
    (s.record e).events.length ≤ 64 := by
  rcases record_cases s e with ⟨h', hr⟩ | ⟨-, hr⟩ <;> rw [hr]
  · rw [List.length_append, List.length_singleton]; omega
  · exact h

/-- A record never empties the queue. -/
theorem record_events_ne_nil (s : State) (e : EventRecord) : (s.record e).events ≠ [] := by
  rcases record_cases s e with ⟨-, hr⟩ | ⟨h, hr⟩ <;> rw [hr]
  · simp
  · intro hn
    have hs : s.events = [] := hn
    rw [hs, List.length_nil] at h
    omega

/-! ### Replies and notices -/

/-- All that a report on a reply can do: nothing, or the reset of a RESTART (R172). -/
theorem reportReply_cases (s : State) (r : Reply) :
    (r.kind ≠ .restartResponse ∧ reportReply s r = s) ∨
    (r.kind = .restartResponse ∧ reportReply s r = resetPart s true) := by
  unfold reportReply
  cases h : r.kind <;> simp

/-- Reports on replies none of which is a RESTART's response change nothing. -/
theorem reportReplies_of_no_restart (s : State) (l : List Reply) (h : ∀ r ∈ l, r.kind ≠ .restartResponse) :
    reportReplies s l = s := by
  induction l generalizing s with
  | nil => rfl
  | cons r rest ih =>
    have hr : reportReply s r = s := by
      rcases reportReply_cases s r with h' | h'
      · exact h'.2
      · exact absurd h'.1 (h r (by simp))
    simp only [reportReplies, List.foldl_cons, hr]
    exact ih s (fun q hq => h q (by simp [hq]))

/-- All that offering a reply can do (R7). -/
theorem offerReply_cases (s : State) (p : Port) (r : Reply) :
    ((s.port p).up = true ∧ offerReply s p r = s.setPort p (placeReply (s.port p) r)) ∨
    ((s.port p).up = false ∧ offerReply s p r = reportReply s r) := by
  unfold offerReply
  cases h : (s.port p).up <;> simp

/-- All that offering a NOTICE can do (R162). -/
theorem offerNotice_cases (s : State) (n : NoticeDestination) (e : EventRecord) (flag : Bool) :
    (s.net.up = false ∧ offerNotice s n e flag = s) ∨
    (s.net.up = true ∧ s.net.replyQueue.length < 4 ∧
      offerNotice s n e flag = { s with net := placeReply s.net ⟨.notice, noticeFrame s n e flag⟩ }) ∨
    (s.net.up = true ∧ 4 ≤ s.net.replyQueue.length ∧
      offerNotice s n e flag =
        { s with management := { s.management with noticesLost := satAdd s.management.noticesLost 1 } }) := by
  unfold offerNotice
  cases h : s.net.up
  · simp
  · simp only [Bool.not_true, Bool.false_eq_true, ↓reduceIte]
    split
    · exact .inr (.inl ⟨trivial, ‹_›, rfl⟩)
    · exact .inr (.inr ⟨trivial, by omega, rfl⟩)

/-- All that the NOTICE of an operation can do: nothing, or one offer for the oldest record of a queue that was empty. -/
theorem noticeAfter_cases (u w : State) :
    noticeAfter u w = w ∨
    ∃ e rest n, u.events = [] ∧ w.events = e :: rest ∧ w.settings.notice = some n ∧
      noticeAfter u w = offerNotice w n e u.overflow := by
  unfold noticeAfter
  split
  · rename_i e rest n hu hw hn
    exact .inr ⟨e, rest, n, hu, hw, hn, rfl⟩
  · exact .inl rfl

/-- The NOTICE changes the NET Port Unit and Notices Lost alone. -/
theorem noticeAfter_frame (u w : State) :
    ∃ ps k, noticeAfter u w = { w with net := ps, management := k } := by
  rcases noticeAfter_cases u w with h | ⟨e, rest, n, -, -, -, h⟩
  · exact ⟨w.net, w.management, by rw [h]⟩
  · rcases offerNotice_cases w n e u.overflow with h' | h' | h'
    · exact ⟨w.net, w.management, by rw [h, h'.2]⟩
    · exact ⟨_, w.management, by rw [h, h'.2.2]⟩
    · exact ⟨w.net, _, by rw [h, h'.2.2]⟩

/-- The NOTICE leaves the NET reply queue within four frames, if it was. -/
theorem noticeAfter_net (u w : State) (h : w.net.replyQueue.length ≤ 4) :
    (noticeAfter u w).net.replyQueue.length ≤ 4 ∧
    (noticeAfter u w).net.forwardQueue.length ≤ w.net.forwardQueue.length := by
  rcases noticeAfter_cases u w with h1 | ⟨e, rest, n, -, -, -, h1⟩
  · rw [h1]; exact ⟨h, le_refl _⟩
  · rcases offerNotice_cases w n e u.overflow with h' | h' | h'
    · rw [h1, h'.2]; exact ⟨h, le_refl _⟩
    · rw [h1, h'.2.2]
      have hp := placeReply_lengths w.net ⟨.notice, noticeFrame w n e u.overflow⟩
      exact ⟨by simp only; omega, hp.2⟩
    · rw [h1, h'.2.2]; exact ⟨h, le_refl _⟩

@[simp] theorem noticeAfter_resetN (u w : State) : (noticeAfter u w).resetN = w.resetN := by
  obtain ⟨ps, k, h⟩ := noticeAfter_frame u w; rw [h]

@[simp] theorem noticeAfter_netLink (u w : State) : (noticeAfter u w).netLink = w.netLink := by
  obtain ⟨ps, k, h⟩ := noticeAfter_frame u w; rw [h]

@[simp] theorem noticeAfter_cellLink (u w : State) : (noticeAfter u w).cellLink = w.cellLink := by
  obtain ⟨ps, k, h⟩ := noticeAfter_frame u w; rw [h]

@[simp] theorem noticeAfter_chgPermit (u w : State) : (noticeAfter u w).chgPermit = w.chgPermit := by
  obtain ⟨ps, k, h⟩ := noticeAfter_frame u w; rw [h]

@[simp] theorem noticeAfter_clock (u w : State) : (noticeAfter u w).clock = w.clock := by
  obtain ⟨ps, k, h⟩ := noticeAfter_frame u w; rw [h]

@[simp] theorem noticeAfter_cell (u w : State) : (noticeAfter u w).cell = w.cell := by
  obtain ⟨ps, k, h⟩ := noticeAfter_frame u w; rw [h]

@[simp] theorem noticeAfter_decisions (u w : State) : (noticeAfter u w).decisions = w.decisions := by
  obtain ⟨ps, k, h⟩ := noticeAfter_frame u w; rw [h]

@[simp] theorem noticeAfter_outstanding (u w : State) : (noticeAfter u w).outstanding = w.outstanding := by
  obtain ⟨ps, k, h⟩ := noticeAfter_frame u w; rw [h]

@[simp] theorem noticeAfter_shadow (u w : State) : (noticeAfter u w).shadow = w.shadow := by
  obtain ⟨ps, k, h⟩ := noticeAfter_frame u w; rw [h]

@[simp] theorem noticeAfter_guards (u w : State) : (noticeAfter u w).guards = w.guards := by
  obtain ⟨ps, k, h⟩ := noticeAfter_frame u w; rw [h]

@[simp] theorem noticeAfter_permit (u w : State) : (noticeAfter u w).permit = w.permit := by
  obtain ⟨ps, k, h⟩ := noticeAfter_frame u w; rw [h]

@[simp] theorem noticeAfter_permitPeriod (u w : State) : (noticeAfter u w).permitPeriod = w.permitPeriod := by
  obtain ⟨ps, k, h⟩ := noticeAfter_frame u w; rw [h]

@[simp] theorem noticeAfter_intervalNext (u w : State) : (noticeAfter u w).intervalNext = w.intervalNext := by
  obtain ⟨ps, k, h⟩ := noticeAfter_frame u w; rw [h]

@[simp] theorem noticeAfter_alert (u w : State) : (noticeAfter u w).alert = w.alert := by
  obtain ⟨ps, k, h⟩ := noticeAfter_frame u w; rw [h]

@[simp] theorem noticeAfter_loads (u w : State) : (noticeAfter u w).loads = w.loads := by
  obtain ⟨ps, k, h⟩ := noticeAfter_frame u w; rw [h]

@[simp] theorem noticeAfter_bankA (u w : State) : (noticeAfter u w).bankA = w.bankA := by
  obtain ⟨ps, k, h⟩ := noticeAfter_frame u w; rw [h]

@[simp] theorem noticeAfter_bankB (u w : State) : (noticeAfter u w).bankB = w.bankB := by
  obtain ⟨ps, k, h⟩ := noticeAfter_frame u w; rw [h]

@[simp] theorem noticeAfter_active (u w : State) : (noticeAfter u w).active = w.active := by
  obtain ⟨ps, k, h⟩ := noticeAfter_frame u w; rw [h]

@[simp] theorem noticeAfter_lock (u w : State) : (noticeAfter u w).lock = w.lock := by
  obtain ⟨ps, k, h⟩ := noticeAfter_frame u w; rw [h]

@[simp] theorem noticeAfter_mode (u w : State) : (noticeAfter u w).mode = w.mode := by
  obtain ⟨ps, k, h⟩ := noticeAfter_frame u w; rw [h]

@[simp] theorem noticeAfter_startOutcome (u w : State) : (noticeAfter u w).startOutcome = w.startOutcome := by
  obtain ⟨ps, k, h⟩ := noticeAfter_frame u w; rw [h]

@[simp] theorem noticeAfter_station (u w : State) : (noticeAfter u w).station = w.station := by
  obtain ⟨ps, k, h⟩ := noticeAfter_frame u w; rw [h]

@[simp] theorem noticeAfter_settings (u w : State) : (noticeAfter u w).settings = w.settings := by
  obtain ⟨ps, k, h⟩ := noticeAfter_frame u w; rw [h]

@[simp] theorem noticeAfter_tokenFailures (u w : State) : (noticeAfter u w).tokenFailures = w.tokenFailures := by
  obtain ⟨ps, k, h⟩ := noticeAfter_frame u w; rw [h]

@[simp] theorem noticeAfter_lockoutEnd (u w : State) : (noticeAfter u w).lockoutEnd = w.lockoutEnd := by
  obtain ⟨ps, k, h⟩ := noticeAfter_frame u w; rw [h]

@[simp] theorem noticeAfter_events (u w : State) : (noticeAfter u w).events = w.events := by
  obtain ⟨ps, k, h⟩ := noticeAfter_frame u w; rw [h]

@[simp] theorem noticeAfter_overflow (u w : State) : (noticeAfter u w).overflow = w.overflow := by
  obtain ⟨ps, k, h⟩ := noticeAfter_frame u w; rw [h]

@[simp] theorem noticeAfter_save (u w : State) : (noticeAfter u w).save = w.save := by
  obtain ⟨ps, k, h⟩ := noticeAfter_frame u w; rw [h]

@[simp] theorem noticeAfter_lastSave (u w : State) : (noticeAfter u w).lastSave = w.lastSave := by
  obtain ⟨ps, k, h⟩ := noticeAfter_frame u w; rw [h]

@[simp] theorem noticeAfter_restartPending (u w : State) : (noticeAfter u w).restartPending = w.restartPending := by
  obtain ⟨ps, k, h⟩ := noticeAfter_frame u w; rw [h]

@[simp] theorem noticeAfter_memory (u w : State) : (noticeAfter u w).memory = w.memory := by
  obtain ⟨ps, k, h⟩ := noticeAfter_frame u w; rw [h]

@[simp] theorem noticeAfter_freeValues (u w : State) : (noticeAfter u w).freeValues = w.freeValues := by
  obtain ⟨ps, k, h⟩ := noticeAfter_frame u w; rw [h]

@[simp] theorem noticeAfter_pending (u w : State) : (noticeAfter u w).pending = w.pending := by
  obtain ⟨ps, k, h⟩ := noticeAfter_frame u w; rw [h]

/-! ### The reset (R164) -/

@[simp] theorem resetPart_resetN (s : State) (h : Bool) : (resetPart s h).resetN = h := rfl
@[simp] theorem resetPart_netLink (s : State) (h : Bool) : (resetPart s h).netLink = s.netLink := rfl
@[simp] theorem resetPart_cellLink (s : State) (h : Bool) : (resetPart s h).cellLink = s.cellLink := rfl
@[simp] theorem resetPart_chgPermit (s : State) (h : Bool) : (resetPart s h).chgPermit = s.chgPermit := rfl
@[simp] theorem resetPart_memory (s : State) (h : Bool) : (resetPart s h).memory = s.memory := rfl
@[simp] theorem resetPart_freeValues (s : State) (h : Bool) : (resetPart s h).freeValues = s.freeValues := rfl
@[simp] theorem resetPart_pending (s : State) (h : Bool) : (resetPart s h).pending = s.pending := rfl

/-- Every field but the pins, the permit period, the memory, the free-value counter and the queue is that of
`State.reset`. -/
theorem resetPart_eq (s : State) (h : Bool) :
    resetPart s h =
      { State.reset with
        resetN := h
        netLink := s.netLink
        cellLink := s.cellLink
        chgPermit := s.chgPermit
        permitPeriod := (resetPart s h).permitPeriod
        memory := s.memory
        freeValues := s.freeValues
        pending := s.pending } := rfl

end Sys2Proof.Laws
end

