-- ==== Sys2Proof/Laws/Memory.lean ====
section
/-! SUPPORT. The serial memory: every operation keeps the canonical form, and reads after writes. -/

namespace Sys2Proof.Laws

open Sys2Proof Sys2Proof.Machine

/-- The canonical form, as a proposition. -/
theorem memoryWf_iff (m : List (Nat × Byte)) :
    memoryWf m = true ↔ m.Pairwise (fun a b => a.1 < b.1) ∧ ∀ c ∈ m, c.2 ≠ memoryBlank := by
  simp [memoryWf]

theorem reset_memory_wf : memoryWf State.reset.memory = true := by decide

/-- The cells of a run of bytes lie inside the run, and none is blank. -/
theorem mem_cellsOf {a : Nat} {l : List Byte} {c : Nat × Byte} (h : c ∈ cellsOf a l) :
    a ≤ c.1 ∧ c.1 < a + l.length ∧ c.2 ≠ memoryBlank := by
  induction l generalizing a with
  | nil => simp [cellsOf] at h
  | cons b rest ih =>
    unfold cellsOf at h
    split at h
    · have := ih h
      exact ⟨by omega, by rw [List.length_cons]; omega, this.2.2⟩
    · rename_i hb
      rcases List.mem_cons.mp h with rfl | h
      · exact ⟨le_refl _, by simp, hb⟩
      · have := ih h
        exact ⟨by omega, by rw [List.length_cons]; omega, this.2.2⟩

theorem cellsOf_sorted (a : Nat) (l : List Byte) : (cellsOf a l).Pairwise (fun x y => x.1 < y.1) := by
  induction l generalizing a with
  | nil => simp [cellsOf]
  | cons b rest ih =>
    unfold cellsOf
    split
    · exact ih _
    · refine List.pairwise_cons.mpr ⟨fun c hc => ?_, ih _⟩
      have := (mem_cellsOf hc).1
      simp only; omega

/-- A write keeps the canonical form. -/
theorem memoryWrite_wf (m : List (Nat × Byte)) (a : Nat) (l : List Byte) (h : memoryWf m = true) :
    memoryWf (memoryWrite m a l) = true := by
  rw [memoryWf_iff] at h ⊢
  obtain ⟨hs, hb⟩ := h
  unfold memoryWrite
  refine ⟨?_, ?_⟩
  · refine List.pairwise_append.mpr ⟨hs.filter _, ?_, ?_⟩
    · refine List.pairwise_append.mpr ⟨cellsOf_sorted a l, hs.filter _, ?_⟩
      intro x hx y hy
      have h1 := (mem_cellsOf hx).2.1
      have h2 := of_decide_eq_true (List.mem_filter.mp hy).2
      omega
    · intro x hx y hy
      have h1 := of_decide_eq_true (List.mem_filter.mp hx).2
      rcases List.mem_append.mp hy with hy | hy
      · have h2 := (mem_cellsOf hy).1
        omega
      · have h2 := of_decide_eq_true (List.mem_filter.mp hy).2
        omega
  · intro c hc
    rcases List.mem_append.mp hc with hc | hc
    · exact hb c (List.mem_filter.mp hc).1
    · rcases List.mem_append.mp hc with hc | hc
      · exact (mem_cellsOf hc).2.2
      · exact hb c (List.mem_filter.mp hc).1

/-- In a sorted memory the byte at an address is that of its cell, and blank when there is none. -/
theorem memoryRead_of_mem {m : List (Nat × Byte)} (hs : m.Pairwise (fun a b => a.1 < b.1)) {c : Nat × Byte}
    (hc : c ∈ m) : memoryRead m c.1 = c.2 := by
  induction m with
  | nil => simp at hc
  | cons x rest ih =>
    obtain ⟨hx, hr⟩ := List.pairwise_cons.mp hs
    unfold memoryRead
    rcases List.mem_cons.mp hc with rfl | hc
    · simp
    · have hlt := hx c hc
      rw [if_neg (by omega), if_neg (by omega)]
      exact ih hr hc

theorem memoryRead_of_not_mem {m : List (Nat × Byte)} {a : Nat} (h : ∀ c ∈ m, c.1 ≠ a) :
    memoryRead m a = memoryBlank := by
  induction m with
  | nil => rfl
  | cons x rest ih =>
    unfold memoryRead
    rw [if_neg (h x (by simp))]
    split
    · rfl
    · exact ih (fun c hc => h c (by simp [hc]))

/-- Two sorted memories with the same cell at an address, or none, read the same there. -/
theorem memoryRead_congr {m n : List (Nat × Byte)} {a : Nat} (hm : m.Pairwise (fun a b => a.1 < b.1))
    (hn : n.Pairwise (fun a b => a.1 < b.1)) (h : ∀ b, (a, b) ∈ m ↔ (a, b) ∈ n) :
    memoryRead m a = memoryRead n a := by
  by_cases hc : ∃ b, (a, b) ∈ m
  · obtain ⟨b, hb⟩ := hc
    rw [memoryRead_of_mem hm hb, memoryRead_of_mem hn ((h b).mp hb)]
  · rw [memoryRead_of_not_mem (fun c hcm he => hc ⟨c.2, by rw [← he]; exact hcm⟩),
      memoryRead_of_not_mem (fun c hcn he => hc ⟨c.2, (h c.2).mpr (by rw [← he]; exact hcn)⟩)]

/-- A write leaves every byte outside its run. -/
theorem memoryRead_memoryWrite_outside (m : List (Nat × Byte)) (a : Nat) (l : List Byte) (x : Nat)
    (h : memoryWf m = true) (hx : x < a ∨ a + l.length ≤ x) :
    memoryRead (memoryWrite m a l) x = memoryRead m x := by
  have hw := (memoryWf_iff _).mp (memoryWrite_wf m a l h)
  have hm := (memoryWf_iff _).mp h
  refine memoryRead_congr hw.1 hm.1 (fun b => ?_)
  unfold memoryWrite
  simp only [List.mem_append, List.mem_filter, decide_eq_true_eq]
  constructor
  · rintro (h | h | h)
    · exact h.1
    · have := mem_cellsOf h
      simp only at this
      omega
    · exact h.1
  · intro hb
    rcases hx with hx | hx
    · exact .inl ⟨hb, hx⟩
    · exact .inr (.inr ⟨hb, hx⟩)

/-- The cell of a byte of a run, unless it is blank. -/
theorem cellsOf_mem_iff (a : Nat) (l : List Byte) (k : Nat) (hk : k < l.length) (b : Byte) :
    (a + k, b) ∈ cellsOf a l ↔ l[k] = b ∧ b ≠ memoryBlank := by
  induction l generalizing a k with
  | nil => simp at hk
  | cons x rest ih =>
    cases k with
    | zero =>
      have hout : (a, b) ∉ cellsOf (a + 1) rest := fun h => by
        have := (mem_cellsOf h).1
        simp only at this
        omega
      unfold cellsOf
      by_cases hx : x = memoryBlank
      · simp only [if_pos hx, Nat.add_zero, List.getElem_cons_zero]
        exact ⟨fun h => absurd h hout, fun h => absurd (h.1.symm.trans hx) h.2⟩
      · simp only [if_neg hx, Nat.add_zero, List.getElem_cons_zero, List.mem_cons, Prod.mk.injEq, true_and]
        exact ⟨fun h => h.elim (fun h => ⟨h.symm, h ▸ hx⟩) (fun h => absurd h hout), fun h => .inl h.1.symm⟩
    | succ k =>
      have hk' : k < rest.length := by simpa using hk
      have hi := ih (a + 1) k hk'
      have he : a + (k + 1) = a + 1 + k := by omega
      unfold cellsOf
      split
      · rw [he, hi]; simp
      · rw [List.mem_cons, he, hi]
        simp only [List.getElem_cons_succ, Prod.mk.injEq]
        exact ⟨fun h => h.elim (fun h => by omega) id, .inr⟩

/-- A byte written is read back. -/
theorem memoryRead_memoryWrite_inside (m : List (Nat × Byte)) (a : Nat) (l : List Byte) (k : Nat)
    (h : memoryWf m = true) (hk : k < l.length) : memoryRead (memoryWrite m a l) (a + k) = l[k] := by
  have hw := (memoryWf_iff _).mp (memoryWrite_wf m a l h)
  by_cases hb : l[k] = memoryBlank
  · rw [hb]
    refine memoryRead_of_not_mem (fun c hc he => ?_)
    unfold memoryWrite at hc
    simp only [List.mem_append, List.mem_filter, decide_eq_true_eq] at hc
    rcases hc with h | h | h
    · omega
    · have h' : (a + k, c.2) ∈ cellsOf a l := by rw [← he]; exact h
      have := (cellsOf_mem_iff a l k hk c.2).mp h'
      exact this.2 (this.1.symm.trans hb)
    · omega
  · have hc : (a + k, l[k]) ∈ memoryWrite m a l := by
      unfold memoryWrite
      simp only [List.mem_append]
      exact .inr (.inl ((cellsOf_mem_iff a l k hk l[k]).mpr ⟨rfl, hb⟩))
    exact memoryRead_of_mem hw.1 hc

/-- The cells below an address do not count for what is read from it on. -/
theorem memoryRead_dropWhile (m : List (Nat × Byte)) (a x : Nat) (h : a ≤ x) :
    memoryRead (m.dropWhile (fun c => decide (c.1 < a))) x = memoryRead m x := by
  induction m with
  | nil => rfl
  | cons c rest ih =>
    by_cases hc : c.1 < a
    · rw [List.dropWhile_cons_of_pos (by simpa using hc), ih]
      conv_rhs => unfold memoryRead
      rw [if_neg (by omega), if_neg (by omega)]
    · rw [List.dropWhile_cons_of_neg (by simpa using hc)]

/-- A run read is its bytes read one by one. -/
theorem memoryRun_eq (n a : Nat) (m : List (Nat × Byte)) (h : m.Pairwise (fun a b => a.1 < b.1)) :
    memoryRun n a m = (List.range' a n).map (memoryRead m) := by
  induction n generalizing a m with
  | zero => rfl
  | succ n ih =>
    have hd : (m.dropWhile (fun c => decide (c.1 < a))).Pairwise (fun a b => a.1 < b.1) :=
      h.sublist (List.dropWhile_sublist _)
    have hread : ∀ x, a ≤ x → memoryRead (m.dropWhile (fun c => decide (c.1 < a))) x = memoryRead m x :=
      fun x hx => memoryRead_dropWhile m a x hx
    have hhead : ∀ c rest, m.dropWhile (fun c => decide (c.1 < a)) = c :: rest → a ≤ c.1 := by
      intro c rest he
      have := List.head?_dropWhile_not (fun c : Nat × Byte => decide (c.1 < a)) m
      rw [he] at this
      simp only [List.head?_cons, decide_eq_false_iff_not, Nat.not_lt] at this
      exact this
    rw [List.range'_succ, List.map_cons]
    unfold memoryRun
    dsimp only
    cases hm : m.dropWhile (fun c => decide (c.1 < a)) with
    | nil =>
      simp only
      rw [ih _ _ List.Pairwise.nil]
      rw [hm] at hread
      congr 1
      · exact hread a (le_refl _)
      · exact List.map_congr_left (fun x hx => hread x (by have := List.mem_range'_1.mp hx; omega))
    | cons c rest =>
      have hac := hhead c rest hm
      rw [hm] at hread hd
      obtain ⟨hlt, hrest⟩ := List.pairwise_cons.mp hd
      simp only
      by_cases he : c.1 = a
      · rw [if_pos he, ih _ _ hrest]
        congr 1
        · rw [← hread a (le_refl _)]; unfold memoryRead; rw [if_pos he]
        · refine List.map_congr_left (fun x hx => ?_)
          have hx' := List.mem_range'_1.mp hx
          rw [← hread x (by omega)]
          conv_rhs => unfold memoryRead
          rw [if_neg (by omega), if_neg (by omega)]
      · rw [if_neg he, ih _ _ hd]
        congr 1
        · rw [← hread a (le_refl _)]; unfold memoryRead; rw [if_neg he, if_pos (by omega)]
        · exact List.map_congr_left (fun x hx => hread x (by have := List.mem_range'_1.mp hx; omega))

/-- A run written is read back whole. -/
theorem memoryRun_memoryWrite (m : List (Nat × Byte)) (a : Nat) (l : List Byte) (h : memoryWf m = true) :
    memoryRun l.length a (memoryWrite m a l) = l := by
  have hw := (memoryWf_iff _).mp (memoryWrite_wf m a l h)
  rw [memoryRun_eq _ _ _ hw.1]
  refine List.ext_getElem (by simp) (fun k h1 h2 => ?_)
  simp only [List.getElem_map, List.getElem_range', Nat.one_mul]
  exact memoryRead_memoryWrite_inside m a l k h h2

/-- A run outside the bytes written reads as before. -/
theorem memoryRun_memoryWrite_outside (m : List (Nat × Byte)) (a : Nat) (l : List Byte) (n b : Nat)
    (h : memoryWf m = true) (hb : b + n ≤ a ∨ a + l.length ≤ b) :
    memoryRun n b (memoryWrite m a l) = memoryRun n b m := by
  have hw := (memoryWf_iff _).mp (memoryWrite_wf m a l h)
  have hm := (memoryWf_iff _).mp h
  rw [memoryRun_eq _ _ _ hw.1, memoryRun_eq _ _ _ hm.1]
  refine List.map_congr_left (fun x hx => ?_)
  have hx' := List.mem_range'_1.mp hx
  exact memoryRead_memoryWrite_outside m a l x h (by omega)

/-- A part of a run: the first bytes of a written run read back. -/
theorem memoryRun_memoryWrite_part (m : List (Nat × Byte)) (a : Nat) (l : List Byte) (k n : Nat)
    (h : memoryWf m = true) (hn : k + n ≤ l.length) :
    memoryRun n (a + k) (memoryWrite m a l) = (l.drop k).take n := by
  have hw := (memoryWf_iff _).mp (memoryWrite_wf m a l h)
  rw [memoryRun_eq _ _ _ hw.1]
  refine List.ext_getElem (by simp; omega) (fun j h1 h2 => ?_)
  simp only [List.length_map, List.length_range'] at h1
  simp only [List.getElem_map, List.getElem_range', Nat.one_mul, List.getElem_take, List.getElem_drop]
  rw [Nat.add_assoc]
  exact memoryRead_memoryWrite_inside m a l (k + j) h (by omega)

end Sys2Proof.Laws
end

