-- ==== Sys2Proof/Laws/Units.lean ====
section
/-! SUPPORT. What the operations of the Load Checker, the Window Unit and the Transaction Tracker can do, said once. -/

namespace Sys2Proof.Laws

open Sys2Proof Sys2Proof.Machine

/-! ### Records added -/

/-- Adding a record changes the Event Queue and its flag alone. -/
theorem record_frame (s : State) (e : EventRecord) :
    ∃ l o, s.record e = { s with events := l, overflow := o } := by
  rcases record_cases s e with ⟨-, h⟩ | ⟨-, h⟩
  · exact ⟨_, s.overflow, by rw [h]⟩
  · exact ⟨s.events, _, by rw [h]⟩

/-! ### Download Records -/

/-- A record aborted leaves its slot FREE and changes the loads and the Event Queue alone (R127). -/
theorem abortLoad_frame (s : State) (d : Fin 4) (reason : Reason) :
    ∃ v l o, abortLoad s d reason = { s with loads := v, events := l, overflow := o } := by
  unfold abortLoad
  split
  · exact ⟨s.loads, s.events, s.overflow, rfl⟩
  · obtain ⟨l, o, h⟩ := record_frame (s.setLoad d none) (abortRecord s ‹Download› reason)
    exact ⟨_, l, o, by rw [h]; rfl⟩

/-- What an abort does to the slots: the one named is FREE and the others stand. -/
theorem abortLoad_loads (s : State) (d : Fin 4) (reason : Reason) :
    (abortLoad s d reason).loads = s.loads.set d none := by
  unfold abortLoad
  split
  · rename_i h
    refine Vector.ext (fun i hi => ?_)
    rw [Vector.getElem_set]
    split
    · rename_i he; subst he; exact h
    · rfl
  · simp

/-- The report of a window's closure changes the loads and the Event Queue alone (R124). -/
theorem abortForWindow_frame (s : State) (i : Fin 16) :
    ∃ v l o, abortForWindow s i = { s with loads := v, events := l, overflow := o } := by
  unfold abortForWindow
  split
  · exact ⟨s.loads, s.events, s.overflow, rfl⟩
  · split
    · split
      · exact abortLoad_frame _ _ _
      · exact ⟨s.loads, s.events, s.overflow, rfl⟩
    · exact ⟨s.loads, s.events, s.overflow, rfl⟩

/-- A report on a load-kind entry changes the loads and the Event Queue alone (R122). -/
theorem applyReport_frame (s : State) (slot : Fin 16) (d : Fin 4) (kind : EntryKind) (positive : Bool) :
    ∃ v l o, applyReport s slot d kind positive = { s with loads := v, events := l, overflow := o } := by
  have hs : ∃ v l o, s = { s with loads := v, events := l, overflow := o } := ⟨s.loads, s.events, s.overflow, rfl⟩
  unfold applyReport
  split
  · exact hs
  · split
    · exact hs
    · split
      · split
        · exact hs
        · exact abortLoad_frame _ _ _
      · split
        · exact hs
        · dsimp only
          split
          · obtain ⟨v, l, o, h⟩ := abortLoad_frame (s.setLoad d (some _)) d .retries
            exact ⟨v, l, o, by rw [h]; rfl⟩
          · exact ⟨_, s.events, s.overflow, rfl⟩
      · obtain ⟨l, o, h⟩ := record_frame (s.setLoad d none) _
        exact ⟨_, l, o, by rw [h]; rfl⟩
      · exact hs

/-- A record idle-expired changes the loads and the Event Queue alone (R123). -/
theorem idleExpire_frame (s : State) (d : Fin 4) :
    ∃ v l o, idleExpire s d = { s with loads := v, events := l, overflow := o } := by
  unfold idleExpire
  split
  · exact ⟨s.loads, s.events, s.overflow, rfl⟩
  · split
    · exact abortLoad_frame _ _ _
    · exact ⟨s.loads, s.events, s.overflow, rfl⟩

/-! ### Windows and the score -/

/-- A guard state changed changes the guards alone. -/
theorem withGuardState_frame (s : State) (i : Fin 16) (g : GuardState) :
    ∃ v, withGuardState s i g = { s with guards := v } := by
  unfold withGuardState
  split
  · exact ⟨_, rfl⟩
  · exact ⟨s.guards, rfl⟩

/-- A window closed changes the guards, the loads and the Event Queue alone (R97). -/
theorem closeWindow_frame (s : State) (i : Fin 16) (reason : Reason) (source : Option MacAddress) :
    ∃ g v l o, closeWindow s i reason source = { s with guards := g, loads := v, events := l, overflow := o } := by
  unfold closeWindow
  split
  · obtain ⟨g, hg⟩ := withGuardState_frame s i .normal
    obtain ⟨l, o, hr⟩ := record_frame (withGuardState s i .normal)
      { time := s.clock, kind := .windowClosed, reason := some reason, slot := some i, source := source }
    dsimp only
    split
    · exact ⟨g, s.loads, l, o, by rw [hr, hg]⟩
    · obtain ⟨v, l', o', ha⟩ := abortForWindow_frame ((withGuardState s i .normal).record
        { time := s.clock, kind := .windowClosed, reason := some reason, slot := some i, source := source }) i
      exact ⟨g, v, l', o', by rw [ha, hr, hg]⟩
  · exact ⟨s.guards, s.loads, s.events, s.overflow, rfl⟩

/-- So do several closed in their order. -/
theorem closeWindows_frame (s : State) (is : List (Fin 16)) (reason : Reason) (source : Option MacAddress) :
    ∃ g v l o, closeWindows s is reason source = { s with guards := g, loads := v, events := l, overflow := o } := by
  induction is generalizing s with
  | nil => exact ⟨s.guards, s.loads, s.events, s.overflow, rfl⟩
  | cons i rest ih =>
    obtain ⟨g, v, l, o, h⟩ := ih (closeWindow s i reason source)
    obtain ⟨g', v', l', o', h'⟩ := closeWindow_frame s i reason source
    refine ⟨g, v, l, o, ?_⟩
    unfold closeWindows at h ⊢
    rw [List.foldl_cons, h, h']

/-- A window's expiry changes the guards, the loads and the Event Queue alone (R93). -/
theorem windowExpire_frame (s : State) (i : Fin 16) :
    ∃ g v l o, windowExpire s i = { s with guards := g, loads := v, events := l, overflow := o } := by
  have hs : ∃ g v l o, s = { s with guards := g, loads := v, events := l, overflow := o } :=
    ⟨s.guards, s.loads, s.events, s.overflow, rfl⟩
  unfold windowExpire
  split
  · split
    · exact closeWindow_frame _ _ _ _
    · exact hs
  · exact hs
  · exact hs
  · exact hs

/-- The end of the stability period (R98, R99): what it can change. -/
theorem permitExpire_frame (s : State) :
    ∃ p t g v l o, permitExpire s =
      { s with permit := p, permitPeriod := t, guards := g, loads := v, events := l, overflow := o } := by
  unfold permitExpire
  split
  · split
    · dsimp only
      split
      · exact ⟨_, _, s.guards, s.loads, s.events, s.overflow, rfl⟩
      · obtain ⟨g, v, l, o, h⟩ := closeWindows_frame
          { s with permit := s.chgPermit, permitPeriod := none } allSlots .permit none
        exact ⟨_, _, g, v, l, o, by rw [h]⟩
    · exact ⟨s.permit, s.permitPeriod, s.guards, s.loads, s.events, s.overflow, rfl⟩
  · exact ⟨s.permit, s.permitPeriod, s.guards, s.loads, s.events, s.overflow, rfl⟩

/-- A violation changes the guards alone (R100). -/
theorem countViolation_frame (s : State) (i : Fin 16) : ∃ g, countViolation s i = { s with guards := g } := by
  unfold countViolation
  split
  · split
    · exact ⟨s.guards, rfl⟩
    · exact ⟨_, rfl⟩
  · exact ⟨s.guards, rfl⟩

/-- A slot scored: what it can change (R102, R103, R106). -/
theorem scoreSlot_frame (s : State) (i : Fin 16) :
    ∃ g v l o a, scoreSlot s i = { s with guards := g, loads := v, events := l, overflow := o, alert := a } := by
  have hs : ∃ g v l o a, s = { s with guards := g, loads := v, events := l, overflow := o, alert := a } :=
    ⟨s.guards, s.loads, s.events, s.overflow, s.alert, rfl⟩
  unfold scoreSlot
  split
  · split
    · exact hs
    · dsimp only
      split
      · unfold freezeSlot
        obtain ⟨g, v, l, o, h⟩ := closeWindow_frame (s.setGuard i (some _)) i .frozen none
        dsimp only
        rw [h]
        obtain ⟨g', hg⟩ := withGuardState_frame
          { s.setGuard i (some _) with guards := g, loads := v, events := l, overflow := o } i .frozen
        rw [hg]
        obtain ⟨l', o', hr⟩ := record_frame
          { { s.setGuard i (some _) with guards := g, loads := v, events := l, overflow := o } with guards := g' } _
        exact ⟨g', v, l', o', true, by rw [hr]; rfl⟩
      · exact ⟨_, s.loads, s.events, s.overflow, s.alert, rfl⟩
  · exact hs

theorem scoreSlots_frame (s : State) (is : List (Fin 16)) :
    ∃ g v l o a, is.foldl scoreSlot s =
      { s with guards := g, loads := v, events := l, overflow := o, alert := a } := by
  induction is generalizing s with
  | nil => exact ⟨s.guards, s.loads, s.events, s.overflow, s.alert, rfl⟩
  | cons i rest ih =>
    obtain ⟨g, v, l, o, a, h⟩ := ih (scoreSlot s i)
    obtain ⟨g', v', l', o', a', h'⟩ := scoreSlot_frame s i
    exact ⟨g, v, l, o, a, by rw [List.foldl_cons, h, h']⟩

/-- The interval expiry: what it can change (R101 to R106). -/
theorem intervalExpire_frame (s : State) :
    ∃ n g v l o a, intervalExpire s =
      { s with intervalNext := n, guards := g, loads := v, events := l, overflow := o, alert := a } := by
  unfold intervalExpire
  split
  · split
    · obtain ⟨g, v, l, o, a, h⟩ := scoreSlots_frame s (usedSlots s.activeBank)
      exact ⟨_, g, v, l, o, a, by rw [h]⟩
    · exact ⟨s.intervalNext, s.guards, s.loads, s.events, s.overflow, s.alert, rfl⟩
  · exact ⟨s.intervalNext, s.guards, s.loads, s.events, s.overflow, s.alert, rfl⟩

/-! ### The Transaction Tracker -/

/-- An entry made: at most one more than before, and the last of the table is the new one (R74). -/
theorem makeEntry_outstanding (s : State) (e : Outstanding) :
    (makeEntry s e).outstanding = s.outstanding.filter (fun x => !hasKey e.slot e.tag x) ++ [e] := rfl

/-- With room for the key the table stays within its capacity (R73, R75). -/
theorem makeEntry_length (s : State) (e : Outstanding) (h : s.outstanding.length ≤ 64)
    (hr : hasRoom s e.slot e.tag = true) : (makeEntry s e).outstanding.length ≤ 64 := by
  rw [makeEntry_outstanding, List.length_append, List.length_singleton]
  unfold hasRoom at hr
  rcases Bool.or_eq_true _ _ ▸ hr with hf | hl
  · obtain ⟨x, hx⟩ := Option.isSome_iff_exists.mp hf
    have hm := List.mem_of_find?_eq_some hx
    have hk := List.find?_some hx
    have hlt : (s.outstanding.filter (fun x => !hasKey e.slot e.tag x)).length < s.outstanding.length := by
      refine Nat.lt_of_le_of_ne (List.length_filter_le _ _) (fun heq => ?_)
      have := List.length_filter_eq_length_iff.mp heq x hm
      simp [hk] at this
    omega
  · have := of_decide_eq_true hl
    have hle := List.length_filter_le (fun x => !hasKey e.slot e.tag x) s.outstanding
    unfold outstandingCapacity at this
    omega

/-- A Shadow Store write keeps the store within its capacity (R86, R89). -/
theorem shadowInsert_length (l : List ShadowEntry) (e : ShadowEntry) (h : l.length ≤ 512) :
    (shadowInsert l e).length ≤ 512 := by
  unfold shadowInsert
  dsimp only
  have hle : (withoutKey l e.slot e.object).length ≤ l.length := List.length_filter_le _ _
  split
  · simp only [List.length_append, List.length_drop, List.length_singleton]; omega
  · rename_i hn
    simp only [List.length_append, List.length_singleton, shadowCapacity] at hn ⊢
    by_contra hc
    exact hn ⟨by omega, by omega⟩

/-- The entry of a key after a Shadow Store write is the one written. -/
theorem shadowInsert_mem (l : List ShadowEntry) (e : ShadowEntry) : e ∈ shadowInsert l e := by
  unfold shadowInsert; simp

/-- No entry that is left has the key taken out. -/
theorem withoutKey_key {l : List ShadowEntry} {slot : Fin 16} {object : BitVec 32} {x : ShadowEntry}
    (h : x ∈ withoutKey l slot object) : (x.slot == slot && x.object == object) = false := by
  have := (List.mem_filter.mp h).2
  rwa [Bool.not_eq_true'] at this

/-- A list without the key is left as it is. -/
theorem withoutKey_of_absent {l : List ShadowEntry} {slot : Fin 16} {object : BitVec 32}
    (h : ∀ x ∈ l, (x.slot == slot && x.object == object) = false) : withoutKey l slot object = l := by
  unfold withoutKey
  rw [List.filter_eq_self]
  intro x hx
  simp [h x hx]

/-- The value written is the reference of its key (R60, R87). -/
theorem reference_shadowInsert {t : State} {l : List ShadowEntry} {e : ShadowEntry} (h : t.shadow = shadowInsert l e) :
    reference t e.slot e.object = some e.value := by
  unfold reference
  rw [h]
  unfold shadowInsert
  dsimp only
  rw [List.find?_append, List.find?_eq_none.mpr]
  · simp
  · intro x hx
    have hm : x ∈ withoutKey l e.slot e.object := by
      split at hx
      · exact List.mem_of_mem_drop hx
      · exact hx
    simp [withoutKey_key hm]

/-- A response's timeout: what it can change (R80). -/
theorem responseExpire_frame (s : State) (slot : Fin 16) (tag : BitVec 32) :
    ∃ t v l o, responseExpire s slot tag =
      { s with outstanding := t, loads := v, events := l, overflow := o } := by
  unfold responseExpire
  split
  · exact ⟨s.outstanding, s.loads, s.events, s.overflow, rfl⟩
  · rename_i e _
    split
    · obtain ⟨l, o, hr⟩ := record_frame (removeEntry s slot tag) (entryRecord .responseTimeout e.deadline e)
      have h1 : ∃ t v l o, (removeEntry s slot tag).record (entryRecord .responseTimeout e.deadline e) =
          { s with outstanding := t, loads := v, events := l, overflow := o } :=
        ⟨_, s.loads, l, o, by rw [hr]; rfl⟩
      dsimp only
      split
      · exact h1
      · exact h1
      · rename_i d _ _ _
        obtain ⟨v, l', o', ha⟩ := applyReport_frame
          ((removeEntry s slot tag).record (entryRecord .responseTimeout e.deadline e)) slot d e.kind false
        exact ⟨_, v, l', o', by rw [ha, hr]; rfl⟩
      · exact h1
    · exact ⟨s.outstanding, s.loads, s.events, s.overflow, rfl⟩

/-- An upstream fragment matches no Profile, whatever its Kind (R14, R31). -/
theorem matchesProfile_upstream_fragment (p : Profile) (l : Layers) (h : isFragment l = true) :
    matchesProfile p false l = false := by
  unfold isFragment at h
  unfold matchesProfile readUdp
  cases hi : readIpv4 l with
  | none => simp [hi] at h
  | some ip =>
    have hf : ip.fragment = true := by simpa [hi] using h
    simp [isFragment, hi, hf]

end Sys2Proof.Laws
end

