-- ==== Sys2Proof/Laws/Timers.lean ====
section
/-! SUPPORT. The clock: what an expiry and the passing of time can do, said once. -/

namespace Sys2Proof.Laws

open Sys2Proof Sys2Proof.Machine

/-! ### The earliest deadline -/

theorem earliest_none_iff (l : List (Nat × Timer)) : earliest l = none ↔ l = [] := by
  cases l with
  | nil => simp [earliest]
  | cons t rest =>
    unfold earliest
    split
    · split <;> simp
    · simp

/-- The earliest is one of the deadlines, and none is before it. -/
theorem earliest_spec {l : List (Nat × Timer)} {t : Nat × Timer} (h : earliest l = some t) :
    t ∈ l ∧ ∀ u ∈ l, t.1 ≤ u.1 := by
  induction l generalizing t with
  | nil => simp [earliest] at h
  | cons x rest ih =>
    unfold earliest at h
    split at h
    · rename_i u hu
      obtain ⟨hm, hle⟩ := ih hu
      split at h
      · cases h
        refine ⟨List.mem_cons_of_mem _ hm, fun y hy => ?_⟩
        rcases List.mem_cons.mp hy with rfl | hy
        · omega
        · exact hle y hy
      · cases h
        refine ⟨List.mem_cons_self, fun y hy => ?_⟩
        rcases List.mem_cons.mp hy with rfl | hy
        · exact le_refl _
        · exact le_trans (by omega) (hle y hy)
    · rename_i hn
      cases h
      rw [earliest_none_iff] at hn
      subst hn
      simp

/-! ### Expiries -/

/-- The end of a lockout changes it alone (R150). -/
theorem lockoutExpire_frame (s : State) : ∃ e, lockoutExpire s = { s with lockoutEnd := e } := by
  unfold lockoutExpire
  split
  · split
    · exact ⟨none, rfl⟩
    · exact ⟨s.lockoutEnd, rfl⟩
  · exact ⟨s.lockoutEnd, rfl⟩

/-- The limit of a SAVE: what it can change (R170). -/
theorem saveExpire_frame (s : State) :
    ∃ r q m f l o, saveExpire s =
      { s with save := r, lastSave := q, memory := m, freeValues := f, events := l, overflow := o } := by
  have hs : ∃ r q m f l o, s =
      { s with save := r, lastSave := q, memory := m, freeValues := f, events := l, overflow := o } :=
    ⟨s.save, s.lastSave, s.memory, s.freeValues, s.events, s.overflow, rfl⟩
  unfold saveExpire
  split
  · exact hs
  · rename_i run _
    split
    · obtain ⟨l, o, h⟩ := record_frame s (saveRecord s .saveFailed run)
      exact ⟨_, _, _, _, l, o, by rw [h]⟩
    · exact hs

/-- The limit of a SAVE keeps the memory in its canonical form. -/
theorem saveExpire_wf (s : State) (h : memoryWf s.memory = true) : memoryWf (saveExpire s).memory = true := by
  unfold saveExpire
  split
  · exact h
  · split
    · exact memoryWrite_wf _ _ _ h
    · exact h

/-- A SAVE abandoned keeps the memory in its canonical form (R171). -/
theorem abandonSave_wf (s : State) (h : memoryWf s.memory = true) : memoryWf (abandonSave s).memory = true := by
  unfold abandonSave
  split
  · exact h
  · exact memoryWrite_wf _ _ _ h

/-- So does a SAVE accepted (R169). -/
theorem beginSave_wf (s : State) (a : MacAddress) (h : memoryWf s.memory = true) :
    memoryWf (beginSave s a).memory = true := memoryWrite_wf _ _ _ h

/-- So does a SAVE ended (R170). -/
theorem endSave_wf (s : State) (misread : List (Nat × Byte)) (h : memoryWf s.memory = true) :
    memoryWf (endSave s misread).memory = true := by
  unfold endSave
  split
  · exact h
  · dsimp only
    split
    · exact memoryWrite_wf _ _ _ h
    · exact memoryWrite_wf _ _ _ (memoryWrite_wf _ _ _ (memoryWrite_wf _ _ _ h))

/-- All that an expiry can change: the window and load state, the Outstanding Table, the permit filter, the timers, the
SAVE, the Event Queue, and the NET Port Unit and Notices Lost by a NOTICE. -/
theorem expire_frame (t : Timer) (s : State) :
    ∃ net management permit permitPeriod guards loads outstanding intervalNext alert lockoutEnd save lastSave memory
      freeValues events overflow, expire t s =
      { s with
        net := net
        management := management
        permit := permit
        permitPeriod := permitPeriod
        guards := guards
        loads := loads
        outstanding := outstanding
        intervalNext := intervalNext
        alert := alert
        lockoutEnd := lockoutEnd
        save := save
        lastSave := lastSave
        memory := memory
        freeValues := freeValues
        events := events
        overflow := overflow } := by
  unfold expire noticing
  cases t with
  | permit =>
    obtain ⟨p, t, g, v, l, o, h⟩ := permitExpire_frame s
    obtain ⟨n, k, hn⟩ := noticeAfter_frame s (permitExpire s)
    exact ⟨n, k, p, t, g, v, s.outstanding, s.intervalNext, s.alert, s.lockoutEnd, s.save, s.lastSave, s.memory,
      s.freeValues, l, o, by rw [hn, h]⟩
  | window i =>
    obtain ⟨g, v, l, o, h⟩ := windowExpire_frame s i
    obtain ⟨n, k, hn⟩ := noticeAfter_frame s (windowExpire s i)
    exact ⟨n, k, s.permit, s.permitPeriod, g, v, s.outstanding, s.intervalNext, s.alert, s.lockoutEnd, s.save,
      s.lastSave, s.memory, s.freeValues, l, o, by simp only []; rw [hn, h]⟩
  | interval =>
    obtain ⟨x, g, v, l, o, a, h⟩ := intervalExpire_frame s
    obtain ⟨n, k, hn⟩ := noticeAfter_frame s (intervalExpire s)
    exact ⟨n, k, s.permit, s.permitPeriod, g, v, s.outstanding, x, a, s.lockoutEnd, s.save, s.lastSave, s.memory,
      s.freeValues, l, o, by rw [hn, h]⟩
  | response slot tag =>
    obtain ⟨t, v, l, o, h⟩ := responseExpire_frame s slot tag
    obtain ⟨n, k, hn⟩ := noticeAfter_frame s (responseExpire s slot tag)
    exact ⟨n, k, s.permit, s.permitPeriod, s.guards, v, t, s.intervalNext, s.alert, s.lockoutEnd, s.save,
      s.lastSave, s.memory, s.freeValues, l, o, by rw [hn, h]⟩
  | idle d =>
    obtain ⟨v, l, o, h⟩ := idleExpire_frame s d
    obtain ⟨n, k, hn⟩ := noticeAfter_frame s (idleExpire s d)
    exact ⟨n, k, s.permit, s.permitPeriod, s.guards, v, s.outstanding, s.intervalNext, s.alert, s.lockoutEnd, s.save,
      s.lastSave, s.memory, s.freeValues, l, o, by rw [hn, h]⟩
  | lockout =>
    obtain ⟨e, h⟩ := lockoutExpire_frame s
    obtain ⟨n, k, hn⟩ := noticeAfter_frame s (lockoutExpire s)
    exact ⟨n, k, s.permit, s.permitPeriod, s.guards, s.loads, s.outstanding, s.intervalNext, s.alert, e, s.save,
      s.lastSave, s.memory, s.freeValues, s.events, s.overflow, by rw [hn, h]⟩
  | save =>
    obtain ⟨r, q, m, f, l, o, h⟩ := saveExpire_frame s
    obtain ⟨n, k, hn⟩ := noticeAfter_frame s (saveExpire s)
    exact ⟨n, k, s.permit, s.permitPeriod, s.guards, s.loads, s.outstanding, s.intervalNext, s.alert, s.lockoutEnd,
      r, q, m, f, l, o, by rw [hn, h]⟩

/-! ### The passing of time -/

/-- A property that every expiry keeps, whatever the clock, is kept while time passes. -/
theorem takeDeadlines_induction {P : State → Prop} (limit : Nat)
    (h : ∀ t s c, P s → P (expire t { s with clock := c })) (n : Nat) (s : State) (hs : P s) :
    P (takeDeadlines limit n s) := by
  induction n generalizing s with
  | zero => exact hs
  | succ n ih =>
    unfold takeDeadlines
    split
    · split
      · exact ih _ (h _ _ _ hs)
      · exact hs
    · exact hs

/-- A property that every expiry and every change of the clock keep is kept while time passes. -/
theorem elapse_induction {P : State → Prop} (hc : ∀ s c, P s → P { s with clock := c })
    (he : ∀ t s, P s → P (expire t s)) (s : State) (n : Nat) (hs : P s) : P (s.elapse n) := by
  unfold State.elapse
  split
  · exact hc _ _ (takeDeadlines_induction _ (fun t s c h => he t _ (hc s c h)) _ s hs)
  · exact hs

/-- After time has passed the clock stands at the new instant; in reset it is held. -/
theorem elapse_clock (s : State) (n : Nat) :
    (s.elapse n).clock = if s.resetN = true then s.clock + n else s.clock := by
  unfold State.elapse
  split <;> rfl

@[simp] theorem expire_resetN (t : Timer) (s : State) : (expire t s).resetN = s.resetN := by
  obtain ⟨_, _, _, _, _, _, _, _, _, _, _, _, _, _, _, _, h⟩ := expire_frame t s
  rw [h]

@[simp] theorem elapse_resetN (s : State) (n : Nat) : (s.elapse n).resetN = s.resetN :=
  elapse_induction (P := fun u => u.resetN = s.resetN) (fun _ _ h => h) (fun t u h => (expire_resetN t u).trans h) s n rfl

@[simp] theorem expire_netLink (t : Timer) (s : State) : (expire t s).netLink = s.netLink := by
  obtain ⟨_, _, _, _, _, _, _, _, _, _, _, _, _, _, _, _, h⟩ := expire_frame t s
  rw [h]

@[simp] theorem elapse_netLink (s : State) (n : Nat) : (s.elapse n).netLink = s.netLink :=
  elapse_induction (P := fun u => u.netLink = s.netLink) (fun _ _ h => h) (fun t u h => (expire_netLink t u).trans h) s n rfl

@[simp] theorem expire_cellLink (t : Timer) (s : State) : (expire t s).cellLink = s.cellLink := by
  obtain ⟨_, _, _, _, _, _, _, _, _, _, _, _, _, _, _, _, h⟩ := expire_frame t s
  rw [h]

@[simp] theorem elapse_cellLink (s : State) (n : Nat) : (s.elapse n).cellLink = s.cellLink :=
  elapse_induction (P := fun u => u.cellLink = s.cellLink) (fun _ _ h => h) (fun t u h => (expire_cellLink t u).trans h) s n rfl

@[simp] theorem expire_chgPermit (t : Timer) (s : State) : (expire t s).chgPermit = s.chgPermit := by
  obtain ⟨_, _, _, _, _, _, _, _, _, _, _, _, _, _, _, _, h⟩ := expire_frame t s
  rw [h]

@[simp] theorem elapse_chgPermit (s : State) (n : Nat) : (s.elapse n).chgPermit = s.chgPermit :=
  elapse_induction (P := fun u => u.chgPermit = s.chgPermit) (fun _ _ h => h) (fun t u h => (expire_chgPermit t u).trans h) s n rfl

@[simp] theorem expire_cell (t : Timer) (s : State) : (expire t s).cell = s.cell := by
  obtain ⟨_, _, _, _, _, _, _, _, _, _, _, _, _, _, _, _, h⟩ := expire_frame t s
  rw [h]

@[simp] theorem elapse_cell (s : State) (n : Nat) : (s.elapse n).cell = s.cell :=
  elapse_induction (P := fun u => u.cell = s.cell) (fun _ _ h => h) (fun t u h => (expire_cell t u).trans h) s n rfl

@[simp] theorem expire_decisions (t : Timer) (s : State) : (expire t s).decisions = s.decisions := by
  obtain ⟨_, _, _, _, _, _, _, _, _, _, _, _, _, _, _, _, h⟩ := expire_frame t s
  rw [h]

@[simp] theorem elapse_decisions (s : State) (n : Nat) : (s.elapse n).decisions = s.decisions :=
  elapse_induction (P := fun u => u.decisions = s.decisions) (fun _ _ h => h) (fun t u h => (expire_decisions t u).trans h) s n rfl

@[simp] theorem expire_shadow (t : Timer) (s : State) : (expire t s).shadow = s.shadow := by
  obtain ⟨_, _, _, _, _, _, _, _, _, _, _, _, _, _, _, _, h⟩ := expire_frame t s
  rw [h]

@[simp] theorem elapse_shadow (s : State) (n : Nat) : (s.elapse n).shadow = s.shadow :=
  elapse_induction (P := fun u => u.shadow = s.shadow) (fun _ _ h => h) (fun t u h => (expire_shadow t u).trans h) s n rfl

@[simp] theorem expire_bankA (t : Timer) (s : State) : (expire t s).bankA = s.bankA := by
  obtain ⟨_, _, _, _, _, _, _, _, _, _, _, _, _, _, _, _, h⟩ := expire_frame t s
  rw [h]

@[simp] theorem elapse_bankA (s : State) (n : Nat) : (s.elapse n).bankA = s.bankA :=
  elapse_induction (P := fun u => u.bankA = s.bankA) (fun _ _ h => h) (fun t u h => (expire_bankA t u).trans h) s n rfl

@[simp] theorem expire_bankB (t : Timer) (s : State) : (expire t s).bankB = s.bankB := by
  obtain ⟨_, _, _, _, _, _, _, _, _, _, _, _, _, _, _, _, h⟩ := expire_frame t s
  rw [h]

@[simp] theorem elapse_bankB (s : State) (n : Nat) : (s.elapse n).bankB = s.bankB :=
  elapse_induction (P := fun u => u.bankB = s.bankB) (fun _ _ h => h) (fun t u h => (expire_bankB t u).trans h) s n rfl

@[simp] theorem expire_active (t : Timer) (s : State) : (expire t s).active = s.active := by
  obtain ⟨_, _, _, _, _, _, _, _, _, _, _, _, _, _, _, _, h⟩ := expire_frame t s
  rw [h]

@[simp] theorem elapse_active (s : State) (n : Nat) : (s.elapse n).active = s.active :=
  elapse_induction (P := fun u => u.active = s.active) (fun _ _ h => h) (fun t u h => (expire_active t u).trans h) s n rfl

@[simp] theorem expire_lock (t : Timer) (s : State) : (expire t s).lock = s.lock := by
  obtain ⟨_, _, _, _, _, _, _, _, _, _, _, _, _, _, _, _, h⟩ := expire_frame t s
  rw [h]

@[simp] theorem elapse_lock (s : State) (n : Nat) : (s.elapse n).lock = s.lock :=
  elapse_induction (P := fun u => u.lock = s.lock) (fun _ _ h => h) (fun t u h => (expire_lock t u).trans h) s n rfl

@[simp] theorem expire_mode (t : Timer) (s : State) : (expire t s).mode = s.mode := by
  obtain ⟨_, _, _, _, _, _, _, _, _, _, _, _, _, _, _, _, h⟩ := expire_frame t s
  rw [h]

@[simp] theorem elapse_mode (s : State) (n : Nat) : (s.elapse n).mode = s.mode :=
  elapse_induction (P := fun u => u.mode = s.mode) (fun _ _ h => h) (fun t u h => (expire_mode t u).trans h) s n rfl

@[simp] theorem expire_startOutcome (t : Timer) (s : State) : (expire t s).startOutcome = s.startOutcome := by
  obtain ⟨_, _, _, _, _, _, _, _, _, _, _, _, _, _, _, _, h⟩ := expire_frame t s
  rw [h]

@[simp] theorem elapse_startOutcome (s : State) (n : Nat) : (s.elapse n).startOutcome = s.startOutcome :=
  elapse_induction (P := fun u => u.startOutcome = s.startOutcome) (fun _ _ h => h) (fun t u h => (expire_startOutcome t u).trans h) s n rfl

@[simp] theorem expire_station (t : Timer) (s : State) : (expire t s).station = s.station := by
  obtain ⟨_, _, _, _, _, _, _, _, _, _, _, _, _, _, _, _, h⟩ := expire_frame t s
  rw [h]

@[simp] theorem elapse_station (s : State) (n : Nat) : (s.elapse n).station = s.station :=
  elapse_induction (P := fun u => u.station = s.station) (fun _ _ h => h) (fun t u h => (expire_station t u).trans h) s n rfl

@[simp] theorem expire_settings (t : Timer) (s : State) : (expire t s).settings = s.settings := by
  obtain ⟨_, _, _, _, _, _, _, _, _, _, _, _, _, _, _, _, h⟩ := expire_frame t s
  rw [h]

@[simp] theorem elapse_settings (s : State) (n : Nat) : (s.elapse n).settings = s.settings :=
  elapse_induction (P := fun u => u.settings = s.settings) (fun _ _ h => h) (fun t u h => (expire_settings t u).trans h) s n rfl

@[simp] theorem expire_tokenFailures (t : Timer) (s : State) : (expire t s).tokenFailures = s.tokenFailures := by
  obtain ⟨_, _, _, _, _, _, _, _, _, _, _, _, _, _, _, _, h⟩ := expire_frame t s
  rw [h]

@[simp] theorem elapse_tokenFailures (s : State) (n : Nat) : (s.elapse n).tokenFailures = s.tokenFailures :=
  elapse_induction (P := fun u => u.tokenFailures = s.tokenFailures) (fun _ _ h => h) (fun t u h => (expire_tokenFailures t u).trans h) s n rfl

@[simp] theorem expire_restartPending (t : Timer) (s : State) : (expire t s).restartPending = s.restartPending := by
  obtain ⟨_, _, _, _, _, _, _, _, _, _, _, _, _, _, _, _, h⟩ := expire_frame t s
  rw [h]

@[simp] theorem elapse_restartPending (s : State) (n : Nat) : (s.elapse n).restartPending = s.restartPending :=
  elapse_induction (P := fun u => u.restartPending = s.restartPending) (fun _ _ h => h) (fun t u h => (expire_restartPending t u).trans h) s n rfl

@[simp] theorem expire_pending (t : Timer) (s : State) : (expire t s).pending = s.pending := by
  obtain ⟨_, _, _, _, _, _, _, _, _, _, _, _, _, _, _, _, h⟩ := expire_frame t s
  rw [h]

@[simp] theorem elapse_pending (s : State) (n : Nat) : (s.elapse n).pending = s.pending :=
  elapse_induction (P := fun u => u.pending = s.pending) (fun _ _ h => h) (fun t u h => (expire_pending t u).trans h) s n rfl

/-- What a change of the permit pin can do: nothing at the level it has, or, after the expiry of a period that has ended, the
pin's level and the period it begins or cancels. -/
theorem changePermit_frame (s : State) (high : Bool) :
    changePermit s high = s ∨
    ∃ p, changePermit s high = { expire .permit s with chgPermit := high, permitPeriod := p } := by
  unfold changePermit permitPin
  split
  · exact .inl rfl
  · next h => exact .inr ⟨_, by rw [expire_chgPermit, if_neg h]⟩

end Sys2Proof.Laws
end

