-- ==== Sys2Proof/Laws/Requests.lean ====
section
/-! SUPPORT. Requests: the tests, the token, the answer, said once. -/

namespace Sys2Proof.Laws

open Sys2Proof Sys2Proof.Machine

/-- A request of the size asked for is run; any other is answered BAD_LENGTH (R148). -/
theorem withLength_cases (r : Request) (len : Nat) (s : State) (k : List Byte → Answer) :
    (r.payloadLength.toNat = len ∧ withLength r len s k = k (r.payload.take len)) ∨
    (r.payloadLength.toNat ≠ len ∧ withLength r len s k = refuse s .badLength) := by
  unfold withLength
  split
  · exact .inl ⟨‹_›, rfl⟩
  · exact .inr ⟨‹_›, rfl⟩

/-- All that the token test can do (R149, R150). -/
theorem tokenTest_cases (r : Request) (s : State) :
    (s.lockoutEnd.isSome = true ∧ tokenTest r s = (s, some .lockedOut)) ∨
    (s.lockoutEnd = none ∧ r.token = s.settings.token ∧ tokenTest r s = ({ s with tokenFailures := 0 }, none)) ∨
    (s.lockoutEnd = none ∧ r.token ≠ s.settings.token ∧ s.tokenFailures = 2 ∧
      tokenTest r s =
        ({ s with tokenFailures := 0, lockoutEnd := some (s.clock + 60000) }.record
          { time := s.clock, kind := .tokenLockout, source := some r.source, extra := some 60 },
          some .notAuthorized)) ∨
    (s.lockoutEnd = none ∧ r.token ≠ s.settings.token ∧ s.tokenFailures ≠ 2 ∧
      tokenTest r s = ({ s with tokenFailures := s.tokenFailures + 1 }, some .notAuthorized)) := by
  unfold tokenTest
  split
  · exact .inl ⟨‹_›, rfl⟩
  · rename_i h
    have hn : s.lockoutEnd = none := by simpa using h
    split
    · exact .inr (.inl ⟨hn, ‹_›, rfl⟩)
    · split
      · exact .inr (.inr (.inl ⟨hn, ‹_›, ‹_›, rfl⟩))
      · exact .inr (.inr (.inr ⟨hn, ‹_›, ‹_›, rfl⟩))

/-- What the token test changes: the failure count, the lockout and the Event Queue. -/
theorem tokenTest_frame (r : Request) (s : State) :
    ∃ k e l o, (tokenTest r s).1 = { s with tokenFailures := k, lockoutEnd := e, events := l, overflow := o } := by
  rcases tokenTest_cases r s with ⟨-, h⟩ | ⟨-, -, h⟩ | ⟨-, -, -, h⟩ | ⟨-, -, -, h⟩
  · exact ⟨s.tokenFailures, s.lockoutEnd, s.events, s.overflow, by rw [h]⟩
  · exact ⟨_, s.lockoutEnd, s.events, s.overflow, by rw [h]⟩
  · obtain ⟨l, o, hr⟩ := record_frame { s with tokenFailures := 0, lockoutEnd := some (s.clock + 60000) }
      { time := s.clock, kind := .tokenLockout, source := some r.source, extra := some 60 }
    exact ⟨_, _, l, o, by rw [h]; exact hr⟩
  · exact ⟨_, s.lockoutEnd, s.events, s.overflow, by rw [h]⟩

/-- A request that needs the token is run after the test, or answered with its status and an empty payload (R149). -/
theorem withToken_cases (r : Request) (s : State) (k : State → Answer) :
    (s.lockoutEnd = none ∧ r.token = s.settings.token ∧ withToken r s k = k { s with tokenFailures := 0 }) ∨
    (∃ status, (status = .lockedOut ∨ status = .notAuthorized) ∧
      withToken r s k = refuse (tokenTest r s).1 status) := by
  unfold withToken
  rcases tokenTest_cases r s with ⟨-, h⟩ | ⟨h1, h2, h⟩ | ⟨-, -, -, h⟩ | ⟨-, -, -, h⟩
  · exact .inr ⟨.lockedOut, .inl rfl, by rw [h]⟩
  · exact .inl ⟨h1, h2, by rw [h]⟩
  · exact .inr ⟨.notAuthorized, .inr rfl, by rw [h]⟩
  · exact .inr ⟨.notAuthorized, .inr rfl, by rw [h]⟩

/-- Tests 1 to 3 of R148: the request's own run, or a refusal that changes nothing. -/
theorem answerRequest_cases (run : Option (Request → State → Answer)) (r : Request) (s : State) :
    (∃ f, run = some f ∧ r.version = 1 ∧ r.payloadLength.toNat ≤ r.payload.length ∧
      answerRequest run r s = f r s) ∨
    (∃ status, answerRequest run r s = refuse s status) := by
  unfold answerRequest
  split
  · exact .inr ⟨_, rfl⟩
  · rename_i hv
    split
    · exact .inr ⟨_, rfl⟩
    · rename_i f
      split
      · exact .inr ⟨_, rfl⟩
      · exact .inl ⟨f, rfl, by simpa using hv, by omega, rfl⟩

/-- All that serving a request can do (R146): count it as refused or without room, or execute it. -/
theorem serveRequest_cases (code : Byte) (run : Option (Request → State → Answer)) (r : Request) (s : State) :
    (requestAllowed r s = false ∧ serveRequest code run r s =
      { s with management := { s.management with refused := satAdd s.management.refused 1 } }) ∨
    (requestAllowed r s = true ∧ 4 ≤ (s.port r.port).replyQueue.length ∧ serveRequest code run r s =
      { s with management := { s.management with replyFull := satAdd s.management.replyFull 1 } }) ∨
    (requestAllowed r s = true ∧ (s.port r.port).replyQueue.length < 4 ∧
      serveRequest code run r s = executeRequest code run r s) := by
  unfold serveRequest
  cases h : requestAllowed r s
  · exact .inl ⟨rfl, rfl⟩
  · simp only [Bool.not_true, Bool.false_eq_true, ↓reduceIte]
    split
    · exact .inr (.inl ⟨trivial, ‹_›, rfl⟩)
    · exact .inr (.inr ⟨trivial, by omega, rfl⟩)

/-- A mode entered changes the mode and the Event Queue alone (R156). -/
theorem enterMode_frame (s : State) (m : Mode) (source : MacAddress) :
    ∃ l o, enterMode s m source = { s with mode := m, events := l, overflow := o } := by
  unfold enterMode
  split
  · rename_i h
    exact ⟨s.events, s.overflow, by rw [← h]⟩
  · obtain ⟨l, o, hr⟩ := record_frame { s with mode := m }
      { time := s.clock, kind := .modeChanged, source := some source, extra := some (modeCode m).toNat }
    exact ⟨l, o, hr⟩

/-- A window opened changes the guards and the Event Queue alone (R95). -/
theorem openSlot_frame (seconds : Nat) (source : MacAddress) (s : State) (i : Fin 16) :
    ∃ g l o, openSlot seconds source s i = { s with guards := g, events := l, overflow := o } := by
  unfold openSlot
  obtain ⟨g, hg⟩ := withGuardState_frame s i (.window (s.clock + seconds * 1000))
  obtain ⟨l, o, hr⟩ := record_frame (withGuardState s i (.window (s.clock + seconds * 1000)))
    { time := s.clock, kind := .windowOpened, slot := some i, source := some source, extra := some seconds }
  exact ⟨g, l, o, by rw [hr, hg]⟩

/-- A slot thawed changes the guards and the Event Queue alone (R105). -/
theorem thawSlot_frame (s : State) (i : Fin 16) (source : Option MacAddress) :
    ∃ g l o, thawSlot s i source = { s with guards := g, events := l, overflow := o } := by
  unfold thawSlot
  split
  · obtain ⟨l, o, hr⟩ := record_frame (s.setGuard i (some freshGuard))
      { time := s.clock, kind := .thawed, slot := some i, source := source }
    exact ⟨_, l, o, by rw [hr]; rfl⟩
  · exact ⟨s.guards, s.events, s.overflow, rfl⟩

end Sys2Proof.Laws
end

