-- ==== Sys2Proof/Laws/Tables.lean ====
section
/-! SUPPORT. The lengths of table entries, banks and images. -/

namespace Sys2Proof.Laws

open Sys2Proof Sys2Proof.Machine

/-- An entry of a table has the table's entry size (11 section 11.4). -/
theorem entryBytes_length (t : TableId) (i : Nat) (b : Bank) (h : i < tableEntries t) :
    (entryBytes t i b).length = tableEntrySize t := by
  cases t <;> simp only [tableEntries] at h <;> unfold entryBytes
  · simp [show i = 0 by omega, tableEntrySize]
  · simp [h, profileBytes, tableEntrySize]
  · simp [h, codeMapEntryBytes, tableEntrySize]
  · simp [h, controllerBytes, tableEntrySize]
  · simp [h, sourceBytes, tableEntrySize]
  · simp [h, ruleBytes, tableEntrySize]
  · simp [h, imageBytes, tableEntrySize]

/-- A run of entries has as many bytes as its entries together. -/
theorem runBytes_length (t : TableId) (n i : Nat) (b : Bank) (h : i + n ≤ tableEntries t) :
    (runBytes t n i b).length = n * tableEntrySize t := by
  induction n generalizing i with
  | zero => simp [runBytes]
  | succ n ih =>
    rw [runBytes, List.length_append, entryBytes_length t i b (by omega), ih (i + 1) (by omega), Nat.succ_mul]
    omega

/-- A bank has 11684 bytes (11 section 11.6). -/
theorem bankBytes_length (b : Bank) : (bankBytes b).length = 11684 := by
  have h : ∀ t, (runBytes t (tableEntries t) 0 b).length = tableEntries t * tableEntrySize t :=
    fun t => runBytes_length t (tableEntries t) 0 b (by omega)
  simp only [bankBytes, allTables, List.flatMap_cons, List.flatMap_nil, List.length_append, List.length_nil, h]
  rfl

/-- Four address places have 24 bytes. -/
theorem addressPlaces_length (l : List MacAddress) : (addressPlaces l).length = 24 := by
  simp only [addressPlaces, List.length_append, List.length_flatMap, beBytes_length, zeros_length,
    List.map_const', List.sum_replicate, List.length_take, smul_eq_mul]
  omega

/-- The settings block has 48 bytes (11 section 11.6). -/
theorem settingsBytes_length (t : Settings) : (settingsBytes t).length = 48 := by
  unfold settingsBytes settingsHead noticeVlanBytes
  rcases t with ⟨-, -, _ | ⟨a, _ | v⟩, -, -, -⟩ <;> simp [addressPlaces_length]

/-- The body of an image has its stated length (11 section 11.6). -/
theorem bodyBytes_length (t : Settings) (b : Bank) : (bodyBytes t b).length = bodyLength := by
  simp [bodyBytes, settingsBytes_length, bankBytes_length, bodyLength]

/-- The header of an image has 16 bytes (11 section 11.6). -/
@[simp] theorem headerBytes_length (mark : Byte) (body : List Byte) : (headerBytes mark body).length = 16 := by
  simp [headerBytes]

/-- An image written at its address is read back: the header and the body. -/
theorem image_reads_back (m : List (Nat × Byte)) (mark : Byte) (t : Settings) (b : Bank) (h : memoryWf m = true) :
    memoryRun 16 headerAddress
      (memoryWrite m headerAddress (headerBytes mark (bodyBytes t b) ++ bodyBytes t b)) =
      headerBytes mark (bodyBytes t b) ∧
    memoryRun bodyLength bodyAddress
      (memoryWrite m headerAddress (headerBytes mark (bodyBytes t b) ++ bodyBytes t b)) = bodyBytes t b := by
  have hb := bodyBytes_length t b
  generalize bodyBytes t b = body at hb
  have hlen : (headerBytes mark body ++ body).length = 16 + bodyLength := by simp [hb]
  constructor
  · have := memoryRun_memoryWrite_part m headerAddress (headerBytes mark body ++ body) 0 16 h (by omega)
    rw [Nat.add_zero] at this
    rw [this, List.drop_zero, List.take_append_of_le_length (by simp), List.take_of_length_le (by simp)]
  · have := memoryRun_memoryWrite_part m headerAddress (headerBytes mark body ++ body) 16 bodyLength h (by omega)
    rw [show bodyAddress = headerAddress + 16 from rfl, this, List.drop_append_of_le_length (by simp),
      List.drop_of_length_le (by simp), List.nil_append, ← hb, List.take_length]

/-- With nothing misread, the read-back matches (R170). -/
theorem readBackMatches_nil (a : Nat) (l : List Byte) : readBackMatches [] a l = true := by
  induction l generalizing a with
  | nil => rfl
  | cons b rest ih => simp [readBackMatches, misreadAt, ih]

end Sys2Proof.Laws
end

