-- ==== Sys2Proof/Tests/Slice0.lean ====
section
/-! SUPPORT. Our own tests: the well-formedness smoke, the spec's worked values, and a witness for the hypotheses of each
statement. -/

namespace Sys2Proof.Tests

open Sys2Proof Sys2Proof.Machine Sys2Proof.Claims

set_option Elab.async false

/-! ### A small part to test on -/

/-- A controller's address. -/
def press : MacAddress := 0x02006C0A0010#48

/-- A second controller's address. -/
def oven : MacAddress := 0x02006C0A0021#48

/-- A third, whose Unknown Traffic is PASS. -/
def cart : MacAddress := 0x02006C0A0030#48

/-- A station that sends commands. -/
def desk : MacAddress := 0x02006C0A0103#48

/-- A station that sends requests. -/
def office : MacAddress := 0x02006C0A0105#48

/-- An ETHERTYPE profile with the offsets of chapter 2's Profile 2. -/
def pressProfile : Profile :=
  { used := 1, kind := 0, matchValue := 0x9000, codeWidth := 1, tagWidth := 2, objectWidth := 4, segmentFields := 1,
    unlistedClass := 2, responseTimeout := 25, loadIdleLimit := 30, tagOffset := 2, objectOffset := 4,
    valueOffset := 8, statusOffset := 4, responseValueOffset := 5, segmentNumberOffset := 8,
    segmentLengthOffset := 10, segmentPayloadOffset := 12 }

/-- READ 01H, WRITE_VALUE 02H, LOAD_BEGIN 10H, LOAD_SEGMENT 21H, LOAD_ACTIVATE 22H. -/
def pressCodes : Vector CodeMapEntry 256 :=
  (Vector.replicate 256 {}).set 0 ⟨1, 0, 1⟩ |>.set 1 ⟨1, 1, 2⟩ |>.set 2 ⟨1, 4, 0x10⟩ |>.set 3 ⟨1, 5, 0x21⟩
    |>.set 4 ⟨1, 6, 0x22⟩

/-- The fill volume rule of 04 section 4.8 on object 1A40H, a REFUSE rule on 1A44H, a PERMIT rule for the load classes. -/
def pressRules : Vector Rule 256 :=
  (Vector.replicate 256 {}).set 0
      { used := 1, action := 3, classSet := 2, next := 1, valueType := 5, objectFirst := 0x1A40, objectLast := 0x1A40,
        low := 4900, high := 5100, step := 30, grid := 5 }
    |>.set 1
      { used := 1, action := 3, classSet := 2, next := 2, valueType := 5, outOfBand := 1, objectFirst := 0x1A44,
        objectLast := 0x1A44, low := 100, high := 200 }
    |>.set 2 { used := 1, action := 0, classSet := 0x70, next := 0xFFFF, objectLast := 0xFFFFFFFF }

def pressBank : Bank :=
  { profiles := (Vector.replicate 8 {}).set 0 pressProfile
    codeMap := pressCodes
    controllers :=
      (Vector.replicate 16 {}).set 0
          { used := 1, address := press, chainHead := 0, unknownTraffic := 1, imageCheck := 1, scoreWindow := 1,
            freezeThreshold := 3 }
        |>.set 1 { used := 1, address := oven, chainHead := 0xFFFF, unknownTraffic := 1, scoreWindow := 2 }
        |>.set 2 { used := 1, address := cart, chainHead := 0xFFFF, scoreWindow := 2 }
    rules := pressRules
    images := (Vector.replicate 32 {}).set 4 ⟨1, 1, 4, 0x9BE3E0A3, 0x4C4F414430303031⟩ }

/-- A part that runs `pressBank` in ENFORCE with both ports UP, no deadline held. -/
def running : State :=
  { State.reset with
    mode := .enforce
    netLink := true
    cellLink := true
    net := { up := true }
    cell := { up := true }
    bankA := pressBank
    startOutcome := some .goodImage
    guards := (Vector.replicate 16 none).set 0 (some {}) |>.set 1 (some {}) |>.set 2 (some {}) }

/-- A frame of the press protocol. -/
def pressFrame (destination source : MacAddress) (payload : List Byte) : List Byte :=
  let f := beBytes 6 destination.toNat ++ beBytes 6 source.toNat ++ [0x90, 0x00] ++ payload
  withFcs (f ++ zeros (60 - f.length))

/-- WRITE_VALUE, tag 7, to the press. -/
def writeFrame (object value : Nat) : List Byte :=
  pressFrame press desk ([2, 0] ++ beBytes 2 7 ++ beBytes 4 object ++ beBytes 4 value)

/-- LOAD_SEGMENT, tag 7, to the press. -/
def segmentFrame (number : Nat) (data : List Byte) : List Byte :=
  pressFrame press desk ([0x21, 0] ++ beBytes 2 7 ++ zeros 4 ++ beBytes 2 number ++ beBytes 2 data.length ++ data)

/-- LOAD_ACTIVATE, tag 7, to the press. -/
def activateFrame : List Byte := pressFrame press desk ([0x22, 0] ++ beBytes 2 7)

/-- A response of the press: tag 7, a status and a value. -/
def responseOf (status : Byte) (value : Nat) : List Byte :=
  pressFrame desk press ([0x82, 0] ++ beBytes 2 7 ++ [status] ++ beBytes 4 value)

/-- A request on the NET port with the fallback token. -/
def request (payload : List Byte) : Request :=
  { port := .net, source := office, vlanTag := none, version := 1, tag := 0x55, token := 0,
    payloadLength := BitVec.ofNat 16 payload.length, payload := payload ++ zeros (36 - payload.length) }

/-- A running part whose slot 0 is in WINDOW until 600000 ms, permit ASSERTED. -/
def inChange : State :=
  { running with
    chgPermit := true, permit := true, guards := running.guards.set 0 (some { state := .window 600000 }) }

/-- A running part whose slot 0 is FROZEN. -/
def frozenPart : State :=
  { running with alert := true, guards := running.guards.set 0 (some { state := .frozen }) }

/-- The Download Record of the desk's load of the press after segment 0, the four bytes 1234. -/
def pressLoad : Download :=
  { controller := 0, state := .loading, source := desk, nextExpected := 1, lastNumber := some 0, lastLength := 4,
    lastSegmentCrc := 0x9BE3E0A3, runningCrc := ~~~ 0x9BE3E0A3, byteCount := 4, idleDeadline := 30000 }

/-- A running part with that load under way. -/
def loadingPart : State := { running with loads := running.loads.set 0 (some pressLoad) }

/-- A WRITE entry of the press, tag 7, with Deadline 250. -/
def pressEntry : Outstanding :=
  { slot := 0, address := press, tag := 7, kind := .write, object := some 0x1A40, forwarded := some 5030,
    valueType := some .signed32, deadline := 250 }

/-- A running part that waits for the press's answer. -/
def waitingPart : State := { running with outstanding := [pressEntry] }

/-- A SAVE of the running part. -/
def pressSave : SaveRun :=
  { settings := {}, bank := pressBank, bankId := .a, requester := office, limit := 4000 }

/-- A running part with a SAVE under way. -/
def savingPart : State := { running with save := some pressSave }

/-- A part as a start leaves its serial memory: an image of `pressBank` behind a blank identity record. -/
def imageMemory : List (Nat × Byte) :=
  memoryWrite [] headerAddress (headerBytes markComplete (bodyBytes {} pressBank) ++ bodyBytes {} pressBank)

/-- What a command leaves. -/
def after (i : Instr) (s : State) : State :=
  match exec i s with
  | .next t => t
  | .fault _ => s
  | .refused _ => s

/-- The reply the NET transmitter is sending. -/
def reply (s : State) : List Byte := (transmitterReplies s.net.transmitter).flatMap (fun r => r.frame)

/-- The kinds of the records held. -/
def kinds (s : State) : List EventKind := s.events.map (fun e => e.kind)

/-! ### Well-formedness -/

theorem test_wf_accepts_request : (Instr.identify 0 (request [])).wellFormed = true := by decide

theorem test_wf_refuses_tag_type :
    (Instr.identify 0 { request [] with vlanTag := some 0x81010005#32 }).wellFormed = false := by decide

theorem test_wf_refuses_short_frame :
    (Instr.thaw 0 { request [] with payload := zeros 31 }).wellFormed = false := by decide

theorem test_wf_accepts_shortest_frame :
    (Instr.thaw 0 { request [] with payload := zeros 32 }).wellFormed = true := by decide

theorem test_wf_refuses_long_frame :
    (Instr.tableWrite 0 { request [] with payload := zeros 1491 }).wellFormed = false := by decide +kernel

theorem test_wf_refuses_misread_outside : (Instr.saveEnd 0 [(0x0FFF, 1)]).wellFormed = false := by decide

theorem test_wf_refuses_misread_beyond : (Instr.saveEnd 0 [(0x3DE4, 1)]).wellFormed = false := by decide

theorem test_wf_refuses_misread_twice : (Instr.saveEnd 0 [(0x1000, 1), (0x1000, 2)]).wellFormed = false := by
  decide

theorem test_wf_accepts_misread : (Instr.saveEnd 0 [(0x1000, 1), (0x3DE3, 2)]).wellFormed = true := by decide

/-- The table gives no row bits, so a word spells no command. -/
theorem test_decode_none : decodeTableWord 8 5 = none ∧ State.reset.withFetchWord 8 5 = State.reset := ⟨rfl, rfl⟩

/-! ### Values the spec works out -/

/-- The check value of R112's CRC on the nine characters 123456789. -/
theorem test_crc_check_value :
    crc32 [0x31, 0x32, 0x33, 0x34, 0x35, 0x36, 0x37, 0x38, 0x39] = 0xCBF43926#32 := by decide +kernel

/-- 04 section 4.2: FEH A2H in both orders. -/
theorem test_decode_values :
    decodeValue pressProfile .signed16 [0xFE, 0xA2] = -350 ∧
    decodeValue { pressProfile with byteOrder := 1 } .unsigned16 [0xFE, 0xA2] = 41726 ∧
    decodeValue { pressProfile with byteOrder := 1 } .signed16 [0xFE, 0xA2] = -23810 ∧
    encodeValue { pressProfile with byteOrder := 1 } .signed16 (-400) = [0x70, 0xFE] := by decide +kernel

/-- 04 section 4.8, fill volume: cases 1 to 3 and the narrow band. -/
theorem test_bound_fill_volume :
    boundOutcome ⟨4900, 5100, 30, 5, false⟩ (some 5000) 5127 = .clamp 5030 ∧
    boundOutcome ⟨4900, 5100, 30, 5, false⟩ (some 5030) 5012 = .clamp 5010 ∧
    boundOutcome ⟨4900, 5100, 30, 5, false⟩ (some 4850) 5000 = .noAdmissible ∧
    boundOutcome ⟨4900, 4974, 3, 5, false⟩ (some 4974) 4974 = .noAdmissible := by decide +kernel

/-- 04 section 4.8, cap torque, signed trim, label length. -/
theorem test_bound_ties_and_refusal :
    boundOutcome ⟨120, 260, 0, 4, false⟩ none 150 = .clamp 148 ∧
    boundOutcome ⟨-500, 500, 0, 100, false⟩ none (-350) = .clamp (-400) ∧
    boundOutcome ⟨1800, 2400, 50, 10, true⟩ (some 2000) 2045 = .outOfBand ∧
    boundOutcome ⟨1800, 2400, 50, 10, true⟩ (some 2000) 2040 = .permit := by decide +kernel

/-- 04 section 4.8, limits of unsigned 32-bit values: intermediates of more than 32 bits. -/
theorem test_bound_wide_intermediates :
    boundOutcome ⟨0, 0xFFFFFFFF, 0xFFFFFFFF, 0, false⟩ (some 0xFFFFFFF0) 5 = .permit ∧
    boundOutcome ⟨0, 0xFFFFFFFF, 0, 16, false⟩ none 0xFFFFFFFE = .clamp 0xFFFFFFF0 := by decide +kernel

/-- 04 section 4.9: the sum 7DD8H of the words, and the checksum 8288H of the rewritten datagram. -/
theorem test_checksum :
    udpSum ⟨20, 40, false, 17, 0x0A140005, 0x0A140121⟩
      [0xC0, 0x30, 0x76, 0xD2, 0, 0x14, 0, 0, 2, 0, 1, 7, 0, 0, 0x1A, 0x40, 0, 0, 0x14, 7] = 0x7DD8 ∧
    freshChecksum ⟨20, 40, false, 17, 0x0A140005, 0x0A140121⟩
      [0xC0, 0x30, 0x76, 0xD2, 0, 0x14, 0x82, 0x27, 2, 0, 1, 7, 0, 0, 0x1A, 0x40, 0, 0, 0x13, 0xA6] = 0x8288 := by
  decide +kernel

/-- 06 section 6.8: the averages of the four expiries, and that of a window of 8. -/
theorem test_score_averages :
    scoreAverage [0, 0, 0, 0, 0, 0, 0, 5] 4 = 1 ∧ scoreAverage [0, 0, 0, 0, 0, 0, 5, 4] 4 = 2 ∧
    scoreAverage [0, 0, 0, 0, 0, 5, 4, 2] 4 = 2 ∧ scoreAverage [0, 0, 0, 0, 5, 4, 2, 6] 4 = 4 ∧
    scoreAverage [0, 0, 0, 0, 5, 4, 2, 6] 8 = 2 := by decide

/-- The bank of these tests passes the checks of R135 to R139; a second slot with the same address fails as entry 1. -/
theorem test_consistency :
    firstFailure State.reset.station pressBank = none ∧
    firstFailure State.reset.station
      { pressBank with controllers := pressBank.controllers.set 1 { pressBank.controllers[1] with address := press } } =
      some (.controllers, 1) := by decide +kernel

/-! ### One step of each command -/

/-- 10.6: a reset keeps the pins and enters STARTING with the ports DOWN. -/
theorem test_reset_assert :
    (after (.resetNAssert 0) running).mode = .starting ∧ (after (.resetNAssert 0) running).netLink = true ∧
    (after (.resetNAssert 0) running).net.up = false ∧ (after (.resetNAssert 0) running).resetN = false := by
  decide +kernel

/-- R98: the permit filter starts with STARTING, its pin high. -/
theorem test_reset_release :
    (after (.resetNRelease 5) { State.reset with resetN := false, chgPermit := true }).permitPeriod = some 20 ∧
    (after (.resetNRelease 5) { State.reset with resetN := false, chgPermit := true }).clock = 0 := by decide +kernel

/-- R165, R167, R168: no memory answers, so the part starts PASSIVE on the fallback address with two records. -/
theorem test_starting_end :
    (after (.startingEnd 10 false) State.reset).mode = .passive ∧
    (after (.startingEnd 10 false) State.reset).station = 0x02006C000416#48 ∧
    kinds (after (.startingEnd 10 false) State.reset) = [.started, .modeChanged] ∧
    (after (.startingEnd 10 false) State.reset).intervalNext = some 1010 := by decide +kernel

/-- R2, R84, R124: CELL goes DOWN. -/
theorem test_link_changed :
    (after (.linkChanged 0 .cell false) loadingPart).cell.up = false ∧
    kinds (after (.linkChanged 0 .cell false) loadingPart) = [.linkChanged, .loadAborted] ∧
    (after (.linkChanged 0 .cell false) waitingPart).outstanding = [] := by decide +kernel

/-- 04 section 4.8, case 1, as a frame: with reference 5000 the value 5127 leaves as 5030, and 5030 is tracked. -/
theorem test_frame_clamped :
    let t := after (.frameArrival 0 .net (writeFrame 0x1A40 5127))
      { running with shadow := [⟨0, 0x1A40, 5000, .learned, 0⟩] }
    transmitterForwards t.cell.transmitter = [writeFrame 0x1A40 5030] ∧
    t.outstanding.map (fun e => e.forwarded) = [some 5030] ∧ kinds t = [.valueClamped] := by decide +kernel

/-- R87: the press confirms 5030, which becomes the reference. -/
theorem test_frame_confirms :
    reference (after (.frameArrival 0 .cell (responseOf 0 0)) waitingPart) 0 0x1A40 = some 5030 := by decide +kernel

/-- R8: the frame has left, and the waiting reply is granted. -/
theorem test_transmission_complete :
    let t := after (.transmissionComplete 0 .net)
      { running with net := { up := true, transmitter := .forward [1], replyQueue := [⟨.response, [2]⟩] } }
    t.net.forwarded = 1 ∧ t.net.transmitter = .reply ⟨.response, [2]⟩ ∧ t.net.replyQueue = [] := by decide +kernel

/-- R80: at its Deadline the entry is removed and recorded. -/
theorem test_response_timeout :
    (after (.responseTimeout 250 0 7) waitingPart).outstanding = [] ∧
    (after (.responseTimeout 249 0 7) waitingPart).outstanding = [pressEntry] := by decide +kernel

/-- R93, R97: at its deadline the window closes with reason EXPIRED. -/
theorem test_window_expiry :
    (after (.windowExpiry 0 0) { inChange with clock := 600000 }).events.map (fun e => e.reason) = [some .expired] := by
  decide +kernel

/-- R98: a level away from the filtered permit begins 20 ms. -/
theorem test_permit_pin : (after (.chgPermitPinChange 7 true) running).permitPeriod = some 27 := by decide +kernel

/-- R99: the permit is lost, and the window closes with reason PERMIT. -/
theorem test_permit_filter :
    let t := after (.permitFilterExpiry 20) { inChange with chgPermit := false, permitPeriod := some 20 }
    t.permit = false ∧ t.events.map (fun e => e.reason) = [some .permit] := by decide +kernel

/-- 06 section 6.8 at 104000: five, four, two and six violations freeze a threshold of 3 with average 4. -/
theorem test_interval_expiry :
    let b := { pressBank with
      controllers := pressBank.controllers.set 0 { pressBank.controllers[0] with scoreWindow := 4 } }
    let t := after (.intervalExpiry 0)
      { running with
        clock := 0, intervalNext := some 0, bankA := b
        guards := running.guards.set 0 (some { intervalCount := 6, history := [0, 0, 0, 0, 0, 5, 4, 2] }) }
    t.alert = true ∧ t.intervalNext = some 1000 ∧ t.events.map (fun e => (e.kind, e.extra)) = [(.frozen, some 4)] ∧
    t.guards[0] = some { state := .frozen, history := [0, 0, 0, 0, 5, 4, 2, 6], lastAverage := 4 } := by decide +kernel

/-- R123: the load is idle. -/
theorem test_idle_expiry :
    (after (.idleExpiry 30000 0) loadingPart).loads[0] = none ∧
    (after (.idleExpiry 30000 0) loadingPart).events.map (fun e => (e.kind, e.extra)) = [(.loadAborted, some 4)] := by
  decide +kernel

/-- R150: the lockout ends at its end time, not before. -/
theorem test_lockout_end :
    (after (.lockoutEnd 60000) { running with lockoutEnd := some 60000 }).lockoutEnd = none ∧
    (after (.lockoutEnd 59999) { running with lockoutEnd := some 60000 }).lockoutEnd = some 60000 := by decide +kernel

/-- R170: a SAVE whose read-back differs fails. -/
theorem test_save_end_fails :
    kinds (after (.saveEnd 0 [(0x1000, 0)]) savingPart) = [.saveFailed] ∧
    (after (.saveEnd 0 [(0x1000, 0)]) savingPart).lastSave = .failed := by decide +kernel

/-- R170: 4000 ms after its acceptance a SAVE fails. -/
theorem test_save_timeout :
    (after (.saveTimeout 4000) savingPart).save = none ∧ (after (.saveTimeout 3999) savingPart).save.isSome = true := by
  decide +kernel

/-- R152: part number 0416H, version 1. -/
theorem test_identify :
    slice (withoutFcs (reply (after (.identify 0 (request [])) running))) 20 12 =
      [0, 16, 0x04, 0x16, 1, 0, 0x02, 0, 0x6C, 0, 0x04, 0x16] := by decide +kernel

/-- R147: the response's Code is the request's plus 80H, its Tag and status behind it. -/
theorem test_read_status :
    slice (withoutFcs (reply (after (.readStatus 0 (request [])) running))) 12 8 =
      [0x88, 0xB6, 1, 0x82, 0, 0x55, 0, 0] := by decide +kernel

/-- R155: CLEAR sets the counters to 0, the request's own count among them. -/
theorem test_read_counters :
    (after (.readCounters 0 (request [1])) running).net.received = 0 ∧
    (after (.readCounters 0 (request [0])) running).net.received = 1 := by decide +kernel

/-- R132: a read of entry 2 of the Controllers of bank A begins with Used and Profile. -/
theorem test_table_read :
    slice (withoutFcs (reply (after (.tableRead 0 (request [0, 3, 0, 2, 0, 1])) running))) 20 18 =
      [0, 24, 0, 1, 3, 0, 0, 2, 0, 1, 1, 0, 0x02, 0, 0x6C, 0x0A, 0, 0x30] := by decide +kernel

/-- R131: an entry written to the inactive bank. -/
theorem test_table_write :
    (after (.tableWrite 0 (request ([4, 0] ++ beBytes 2 31 ++ beBytes 2 1 ++ [1, 7] ++ beBytes 6 5)))
      running).bankB.sources[31] = ⟨1, 7, 5⟩ := by decide +kernel

/-- R133: the active bank copied. -/
theorem test_bank_copy : (after (.bankCopy 0 (request [])) running).bankB.rules[0] = pressRules[0] := by decide +kernel

/-- R140, R141: the unused bank B becomes active, and slot 0 loses its live state. -/
theorem test_commit :
    (after (.commit 0 (request [])) inChange).active = .b ∧ (after (.commit 0 (request [])) inChange).guards[0] = none ∧
    (after (.commit 0 (request [])) inChange).events.map (fun e => (e.kind, e.reason, e.extra)) =
      [(.windowClosed, some .policy, none), (.committed, none, some 1)] := by decide +kernel

/-- R143: the lock, once. -/
theorem test_lock_policy :
    (after (.lockPolicy 0 (request [])) running).lock = true ∧
    kinds (after (.lockPolicy 0 (request [])) { running with lock := true }) = [] := by decide +kernel

/-- R156: ENFORCE is left with the token, not without. -/
theorem test_set_mode :
    (after (.setMode 0 (request [1])) running).mode = .passive ∧
    (after (.setMode 0 { request [1] with token := 1 }) running).mode = .enforce := by decide +kernel

/-- R95: a duration above 3600 s is granted as 3600 s. -/
theorem test_open_window :
    (after (.openWindow 0 (request [0, 1, 0xFF, 0xFF])) { running with permit := true, chgPermit := true }).guards[0] =
      some { state := .window 3600000 } := by decide +kernel

/-- R97: the requester is the source of the record. -/
theorem test_close_window :
    (after (.closeWindow 0 (request [0, 1])) inChange).events.map (fun e => (e.reason, e.source)) =
      [(some .request, some office)] := by decide +kernel

/-- R105, R106: the slot is NORMAL again and ALERT is deasserted. -/
theorem test_thaw :
    (after (.thaw 0 (request [0, 1])) frozenPart).alert = false ∧
    (after (.thaw 0 (request [0, 1])) frozenPart).guards[0] = some {} := by decide +kernel

/-- R161: one record taken. -/
theorem test_fetch_events :
    (after (.fetchEvents 0 (request [1]))
      { running with events := [⟨3, .started, none, none, none, none, none, none, none, none⟩], overflow := true
        }).events = [] := by decide +kernel

/-- R91: the entries of a slot from First Object on, in ascending order of Object. -/
theorem test_read_shadow :
    shadowFrom { running with shadow := [⟨0, 9, 1, .learned, 0⟩, ⟨1, 5, 1, .learned, 0⟩, ⟨0, 4, 2, .learned, 0⟩,
      ⟨0, 3, 2, .learned, 0⟩] } 0 4 = [⟨0, 4, 2, .learned, 0⟩, ⟨0, 9, 1, .learned, 0⟩] := by decide +kernel

/-- R90: scope ONE removes one key. -/
theorem test_forget_shadow :
    (after (.forgetShadow 0 (request [0, 0, 0, 0, 0, 9]))
      { running with shadow := [⟨0, 9, 1, .learned, 0⟩, ⟨1, 9, 1, .learned, 0⟩] }).shadow = [⟨1, 9, 1, .learned, 0⟩] := by
  decide +kernel

/-- R128: 6 bytes of clock and four records of 44. -/
theorem test_read_loads :
    slice (withoutFcs (reply (after (.readLoads 0 (request [])) loadingPart))) 20 2 = [0, 182] := by decide +kernel

/-- R158: the notice destination is set. -/
theorem test_set_notice_destination :
    (after (.setNoticeDestination 0 (request (beBytes 6 office.toNat ++ [1, 0, 0x20, 5]))) running).settings.notice =
      some ⟨office, some 0x2005⟩ := by decide +kernel

/-- R157: the settings are replaced, the token among them. -/
theorem test_set_settings :
    (after (.setSettings 0 (request ([1, 1, 2, 0] ++ beBytes 6 office.toNat ++ zeros 18 ++ beBytes 8 77)))
      running).settings =
      { sources := [office], cellManagement := true, token := 77, startEnforce := true } := by decide +kernel

/-- R169: the snapshot and the limit. -/
theorem test_save : ((after (.save 0 (request [])) running).save.map (fun r => (r.requester, r.limit))) =
    some (office, 4000) := by decide +kernel

/-- R172: RESTART becomes pending, and the report on its response takes the reset. -/
theorem test_restart :
    (after (.restart 0 (request [])) running).restartPending = true ∧
    (after (.transmissionComplete 1 .net) (after (.restart 0 (request [])) running)).mode = .starting := by
  decide +kernel

/-- R98: a pin held high for the whole 20 ms is taken, although it falls at their end; 1 ms earlier the fall cancels. -/
theorem test_permit_pin_at_the_end :
    let s := { running with chgPermit := true, permitPeriod := some 20 }
    ((after (.chgPermitPinChange 20 false) s).permit = true ∧
      (after (.chgPermitPinChange 20 false) s).permitPeriod = some 40) ∧
    (after (.chgPermitPinChange 19 false) s).permit = false ∧
      (after (.chgPermitPinChange 19 false) s).permitPeriod = none := by decide +kernel

/-- R14, R31: upstream, a fragment matches no Profile, not even one of ETHERTYPE kind on 0800H. -/
theorem test_upstream_fragment :
    let b := { pressBank with profiles := pressBank.profiles.set 0 { pressProfile with matchValue := 0x0800 } }
    let layers := fun (flags : Byte) => readLayers (beBytes 6 desk.toNat ++ beBytes 6 press.toNat ++
      [0x08, 0x00, 0x45, 0, 0, 20, 0, 0, flags, 0, 64, 17] ++ zeros 36)
    classifyUpstream b (layers 0x20) = .unguarded 0 ∧
    classifyUpstream b (layers 0) = .response 0 { pressProfile with matchValue := 0x0800 } := by decide +kernel

/-- Log entry 34: the response Code of a request whose Code is 90H. -/
theorem test_response_code_wraps :
    slice (responseFrame running.station 0x90 (request []) ⟨running, .badRequest, [], false⟩) 14 2 = [1, 0x10] := by
  decide +kernel

/-! ### Witnesses: a state and operands that meet the hypotheses of each statement -/

/-- What a table of optional entries holds, checked entry by entry. -/
theorem some_of_any {α : Type} {o : Option α} {p : α → Prop} [DecidablePred p]
    (h : o.any (fun a => decide (p a)) = true) : ∃ a, o = some a ∧ p a := by
  cases o with
  | none => simp at h
  | some a => exact ⟨a, rfl, by simpa using h⟩

/-- What holds of everything an option holds, checked. -/
theorem all_of_all {α : Type} {o : Option α} {p : α → Prop} [DecidablePred p]
    (h : o.all (fun a => decide (p a)) = true) : ∀ a, o = some a → p a := by
  rintro a rfl
  simpa using h

theorem oneLoadEach_of_check {u : State}
    (h : ∀ d e : Fin 4, d ≠ e → (u.loads[d].bind (fun r => u.loads[e].map (fun q =>
      decide (r.controller = q.controller)))) ≠ some true) : OneLoadEach u := by
  intro d e r q hr hq hc
  by_contra hne
  exact h d e hne (by rw [hr, hq]; simp [hc])

theorem noneBefore_of_check {u : State} {limit : Nat} (h : ∀ t ∈ deadlines u, limit ≤ t.1) : NoneBefore u limit := by
  refine ⟨fun t ht => h (t, .permit) ?_, fun i g d hg hd => h (d, .window i) ?_, fun t ht => h (t, .interval) ?_,
    fun e he => h (e.deadline, .response e.slot e.tag) ?_, fun d r hr => h (r.idleDeadline, .idle d) ?_,
    fun t ht => h (t, .lockout) ?_, fun r hr => h (r.limit, .save) ?_⟩
  · simp [deadlines, ht]
  · have hw : windowDeadline u i = some d := by
      unfold windowDeadline guardOf
      rw [hg]
      simp [hd]
    have hm : (d, Timer.window i) ∈ allSlots.filterMap (fun i => (windowDeadline u i).map (fun t => (t, Timer.window i))) :=
      List.mem_filterMap.mpr ⟨i, List.mem_finRange i, by simp [hw]⟩
    simp only [deadlines, List.mem_append]
    tauto
  · simp [deadlines, ht]
  · have hm : (e.deadline, Timer.response e.slot e.tag) ∈ u.outstanding.map (fun e => (e.deadline, Timer.response e.slot e.tag)) :=
      List.mem_map.mpr ⟨e, he, rfl⟩
    simp only [deadlines, List.mem_append]
    tauto
  · have hm : (r.idleDeadline, Timer.idle d) ∈
        allLoads.filterMap (fun d => u.loads[d].map (fun r => (r.idleDeadline, Timer.idle d))) :=
      List.mem_filterMap.mpr ⟨d, List.mem_finRange d, by simp [hr]⟩
    simp only [deadlines, List.mem_append]
    tauto
  · simp [deadlines, ht]
  · simp [deadlines, hr]

theorem witness_StepRunsTheFrontCommand : State.reset.pending = [] := rfl

theorem witness_CommandsLeaveTheQueueAlone : ∃ t, exec (.identify 0 (request [])) running = .next t := ⟨_, rfl⟩

/-- A deadline at the new instant itself, and a part in reset. -/
theorem witness_QuietTimeMovesTheClockAlone :
    ({ running with lockoutEnd := some 5 }.resetN = true ∧ NoneBefore { running with lockoutEnd := some 5 } 5) ∧
    { running with resetN := false }.resetN = false :=
  ⟨⟨rfl, noneBefore_of_check (by decide +kernel)⟩, rfl⟩

/-- A record for an empty queue with a destination set; and no destination. -/
theorem witness_EventQueueHoldsSixtyFourAndOffersNotices :
    (∃ e rest n, running.events = [] ∧
      (State.record { running with settings := { notice := some ⟨office, none⟩ } }
        { time := 0, kind := .frozen }).events = e :: rest ∧
      (State.record { running with settings := { notice := some ⟨office, none⟩ } }
        { time := 0, kind := .frozen }).settings.notice = some n) ∧
    running.settings.notice = none := ⟨⟨_, _, _, rfl, rfl, rfl⟩, rfl⟩

theorem witness_ResetNAssertReturnsEveryBlock :
    { running with resetN := false }.resetN = false ∧
    (running.resetN = true ∧ memoryWf (running.elapse 0).memory = true ∧ (running.elapse 0).save = none) ∧
    (savingPart.resetN = true ∧ memoryWf (savingPart.elapse 0).memory = true) := by decide +kernel

theorem witness_ResetNReleaseBeginsStarting :
    running.resetN = true ∧ { running with resetN := false }.resetN ≠ true := by decide

theorem witness_StartWithoutMemoryFallsBack :
    (running.elapse 0).mode ≠ .starting ∧
    ((State.reset.elapse 0).resetN = true ∧ (State.reset.elapse 0).mode = .starting) := by decide +kernel

/-- A start from an image of settings and a bank. -/
theorem witness_SavedImageStartsTheSavedPolicy :
    ∃ s : State, (s.elapse 0).resetN = true ∧ (s.elapse 0).mode = .starting ∧
      ImageInMemory (s.elapse 0).memory {} pressBank ∧ SettingsLegal {} ∧
      firstFailure (identityStation (s.elapse 0).memory) pressBank = none := by
  have hi : identityStation imageMemory = identityStation [] := by
    unfold identityStation imageMemory
    rw [Laws.memoryRun_memoryWrite_outside _ _ _ _ _ rfl (.inl (by decide))]
  have hm : ImageInMemory imageMemory {} pressBank := by
    unfold imageMemory
    exact Laws.image_reads_back [] markComplete {} pressBank rfl
  have hf : firstFailure (identityStation imageMemory) pressBank = none := by
    rw [hi]
    decide +kernel
  have key : ∀ m : List (Nat × Byte), ∃ s : State,
      (s.elapse 0).resetN = true ∧ (s.elapse 0).mode = .starting ∧ (s.elapse 0).memory = m :=
    fun m => ⟨{ State.reset with memory := m }, rfl, rfl, rfl⟩
  obtain ⟨s, h1, h2, h3⟩ := key imageMemory
  exact ⟨s, h1, h2, by rw [h3]; exact hm, by simp [SettingsLegal], by rw [h3]; exact hf⟩

/-- The last entry of a table; an entry before the run; another table. -/
theorem witness_WrittenEntriesReadBack :
    (255 + 1 ≤ tableEntries .rules ∧ (List.replicate 36 (0xA5 : Byte)).length = 1 * tableEntrySize .rules) ∧
    (254 < 255 ∨ 255 + 1 ≤ 254) ∧ TableId.images ≠ TableId.rules := by decide

/-- A read-back that matches, and one that differs in the first byte. -/
theorem witness_SaveEndLeavesTheImage :
    ((savingPart.elapse 0).save = some pressSave ∧ memoryWf (savingPart.elapse 0).memory = true) ∧
    readBackMatches [] headerAddress (headerBytes markIncomplete (bodyBytes {} pressBank) ++ bodyBytes {} pressBank) =
      true ∧
    readBackMatches [(0x1000, 0)] headerAddress
      (headerBytes markIncomplete (bodyBytes {} pressBank) ++ bodyBytes {} pressBank) = false :=
  ⟨⟨rfl, by decide +kernel⟩, Laws.readBackMatches_nil _ _, by decide +kernel⟩

/-- The limit itself, and the instant before it. -/
theorem witness_SaveTimeoutFailsTheSave :
    (∃ run, (savingPart.elapse 4000).save = some run ∧
      (run.limit ≤ (savingPart.elapse 4000).clock ∧ memoryWf (savingPart.elapse 4000).memory = true)) ∧
    (∃ run, (savingPart.elapse 3999).save = some run ∧ (savingPart.elapse 3999).clock < run.limit) ∧
    (running.elapse 0).save = none :=
  ⟨some_of_any (by decide +kernel), some_of_any (by decide +kernel), rfl⟩

theorem witness_LinkDownEmptiesThePort :
    (loadingPart.elapse 0).resetN = true ∧ (loadingPart.elapse 0).mode ≠ .starting ∧
    ((loadingPart.elapse 0).link .net = true ∧ (loadingPart.elapse 0).link .cell = true) ∧
    ∀ p : Port, ∀ r ∈ transmitterReplies ((loadingPart.elapse 0).port p).transmitter ++
      ((loadingPart.elapse 0).port p).replyQueue, r.kind ≠ .restartResponse := by
  refine ⟨by decide +kernel, by decide +kernel, by decide +kernel, fun p => ?_⟩
  cases p <;> decide +kernel

theorem witness_LinkUpMovesTheLinkStateAlone :
    (let s := { running with netLink := false }
    (s.elapse 0).resetN = true ∧ (s.elapse 0).mode ≠ .starting ∧ (s.elapse 0).link .net = false) ∧
    (State.reset.elapse 0).mode = .starting ∧ (running.elapse 0).link .cell = true := by decide +kernel

/-- Every case of the arbiter, and every content of a transmitter. -/
theorem witness_TransmissionCompleteFreesAndGrants :
    (let ps : PortState := { up := true, forwardQueue := [[1]], replyQueue := [⟨.notice, [2]⟩], lastGrant := .reply }
    ps.up = true ∧ ps.transmitter = .free ∧ ps.forwardQueue = [1] :: [] ∧ ps.lastGrant = .reply) ∧
    (let ps : PortState := { up := true, replyQueue := [⟨.notice, [2]⟩] }
    ps.up = true ∧ ps.transmitter = .free ∧ ps.replyQueue = ⟨.notice, [2]⟩ :: [] ∧ ps.forwardQueue = []) ∧
    ((running.elapse 0).port .net).transmitter = .free ∧
    (({ running with net := { up := true, transmitter := .forward [1] } }.elapse 0).port .net).transmitter =
      .forward [1] ∧
    (({ running with net := { up := true, transmitter := .reply ⟨.notice, [2]⟩ } }.elapse 0).port .net).transmitter =
      .reply ⟨.notice, [2]⟩ := by decide +kernel

/-- A DOWN port, a frame whose FCS is wrong, one to the station with a second tag, one to the station that is no request,
32 frames queued, and 31 of them with the CELL port DOWN. -/
theorem witness_FramesThatCannotPassAreCounted :
    (({ running with net := {} }.elapse 0).port .net).up = false ∧
    (((running.elapse 0).port .net).up = true ∧ formatOk (zeros 64) = false) ∧
    (let g := withFcs (beBytes 6 (running.elapse 0).station.toNat ++ beBytes 6 office.toNat ++
      [0x81, 0, 0, 1, 0x81, 0, 0, 2] ++ zeros 44)
    formatOk g = true ∧ (readLayers (withoutFcs g)).destination = (running.elapse 0).station ∧
      (readLayers (withoutFcs g)).stacked = true) ∧
    (let f := pressFrame (running.elapse 0).station office [2]
    formatOk f = true ∧ (readLayers (withoutFcs f)).destination = (running.elapse 0).station ∧
      (readLayers (withoutFcs f)).stacked = false ∧ requestOfFrame .net (readLayers (withoutFcs f)) = none) ∧
    (let s := { running with cell := { up := true, forwardQueue := List.replicate 32 [] } }
    ((s.elapse 0).port .net).up = true ∧ formatOk (writeFrame 0x1A40 5000) = true ∧
      (readLayers (withoutFcs (writeFrame 0x1A40 5000))).destination ≠ (s.elapse 0).station ∧
      32 ≤ ((s.elapse 0).port (otherPort .net)).forwardQueue.length) ∧
    (let s := { running with cell := { forwardQueue := List.replicate 31 [] } }
    (s.elapse 0).net.up = true ∧ formatOk (writeFrame 0x1A40 5000) = true ∧
      (readLayers (withoutFcs (writeFrame 0x1A40 5000))).destination ≠ (s.elapse 0).station ∧
      (s.elapse 0).cell.forwardQueue.length < 32 ∧ (s.elapse 0).cell.up = false) := by decide +kernel

theorem witness_PassivePlacesEveryFrameUnchanged :
    ({ running with mode := .passive }.elapse 0).mode = .passive ∧
    ReachesRules (writeFrame 0x1A40 5000) ({ running with mode := .passive }.elapse 0) := by decide +kernel

/-- A transit frame, a group-addressed write, and unknown traffic to a slot that drops it and to one that passes it. -/
theorem witness_FramesWithoutAChain :
    (running.elapse 0).mode = .enforce ∧
    (ReachesRules (pressFrame office desk [2]) (running.elapse 0) ∧
      classifyDownstream (running.elapse 0).activeBank
        (readLayers (withoutFcs (pressFrame office desk [2]))) = .transit) ∧
    (ReachesRules (pressFrame 0xFFFFFFFFFFFF#48 desk [2]) (running.elapse 0) ∧
      classifyDownstream (running.elapse 0).activeBank
        (readLayers (withoutFcs (pressFrame 0xFFFFFFFFFFFF#48 desk [2]))) = .broadcastCommand) ∧
    (let f := withFcs (beBytes 6 cart.toNat ++ beBytes 6 desk.toNat ++ [0x12, 0x34] ++ zeros 46)
    ReachesRules f (running.elapse 0) ∧
      classifyDownstream (running.elapse 0).activeBank (readLayers (withoutFcs f)) = .unguarded 2) := by
  decide +kernel

/-- A write to a FROZEN controller, and one that no rule covers. -/
theorem witness_FrozenAndUnruledCommandsAreDenied :
    (∃ c, commandOf (frozenPart.elapse 0).activeBank (writeFrame 0x1A40 5000) = some c ∧
      ((frozenPart.elapse 0).mode = .enforce ∧ ReachesRules (writeFrame 0x1A40 5000) (frozenPart.elapse 0) ∧
        c.cls ≠ .read ∧ guardOf (frozenPart.elapse 0) c.slot = some .frozen)) ∧
    (∃ c, commandOf (running.elapse 0).activeBank (writeFrame 0x1A4F 5000) = some c ∧
      ((running.elapse 0).mode = .enforce ∧ ReachesRules (writeFrame 0x1A4F 5000) (running.elapse 0) ∧
        c.cls ≠ .read ∧ guardOf (running.elapse 0) c.slot ≠ some .frozen ∧
        decidingRule (running.elapse 0).activeBank c = none)) :=
  ⟨some_of_any (by decide +kernel), some_of_any (by decide +kernel)⟩

/-- The hypotheses of a bounded write of one value, with its outcome. -/
def boundedWrite (s : State) (object : Nat) (k : Fin 256) (v : Int) (outcome : BoundOutcome) : Prop :=
  ∃ c, commandOf (s.elapse 0).activeBank (writeFrame object v.toNat) = some c ∧
    ((s.elapse 0).mode = .enforce ∧ ReachesRules (writeFrame object v.toNat) (s.elapse 0) ∧ c.cls = .writeValue ∧
      guardOf (s.elapse 0) c.slot ≠ some .frozen ∧ decidingRule (s.elapse 0).activeBank c = some k ∧
      (s.elapse 0).activeBank.rules[k].action = 3 ∧
      (¬ ((s.elapse 0).activeBank.rules[k].freeInWindow = 1 ∧ inWindow (s.elapse 0) c.slot = true)) ∧
      valueTypeOfByte (s.elapse 0).activeBank.rules[k].valueType = some .signed32 ∧
      readValue c.profile c.payload.bytes c.profile.valueOffset .signed32 = some v ∧ c.tag = some 7 ∧
      hasRoom (s.elapse 0) c.slot 7 = true ∧
      boundOutcome (boundRuleOf .signed32 (s.elapse 0).activeBank.rules[k]) (reference (s.elapse 0) c.slot c.object) v =
        outcome ∧
      checksumFails (s.elapse 0) c (readLayers (withoutFcs (writeFrame object v.toNat))) = false)

/-- The four outcomes of 04 section 4.8: at High, above High, off a REFUSE rule's band, with an empty band. -/
theorem witness_BoundedWritesAreTrackedAsTheyLeave :
    boundedWrite running 0x1A40 0 5100 .permit ∧ boundedWrite running 0x1A40 0 5101 (.clamp 5100) ∧
    boundedWrite running 0x1A44 1 201 .outOfBand ∧
    boundedWrite { running with shadow := [⟨0, 0x1A40, 4850, .learned, 0⟩] } 0x1A40 0 5000 .noAdmissible :=
  ⟨some_of_any (by decide +kernel), some_of_any (by decide +kernel), some_of_any (by decide +kernel),
    some_of_any (by decide +kernel)⟩

/-- The hypotheses of a segment of the load `r`, with its number, length and data. -/
def loadSegment (r : Download) (number : Nat) (data : List Byte) : Prop :=
  let s := { running with loads := running.loads.set 0 (some r) }
  OneLoadEach (s.elapse 0) ∧
  ∃ c, commandOf (s.elapse 0).activeBank (segmentFrame number data) = some c ∧
    ((s.elapse 0).mode = .enforce ∧ ReachesRules (segmentFrame number data) (s.elapse 0) ∧ c.cls = .loadSegment ∧
      c.controller.imageCheck = 1 ∧ guardOf (s.elapse 0) c.slot ≠ some .frozen ∧
      c.segment = some ⟨BitVec.ofNat 16 number, BitVec.ofNat 16 data.length, data⟩ ∧ c.tag = some 7 ∧
      decidingRule (s.elapse 0).activeBank c = some 2 ∧ (s.elapse 0).activeBank.rules[2].action = 0 ∧
      hasRoom (s.elapse 0) c.slot 7 = true ∧ (s.elapse 0).loads[0] = some r ∧ r.controller = c.slot ∧
      r.state = .loading ∧ r.source = c.source)

/-- The next segment, also the one that brings the Byte Count to FFFFFFFFH; a repeat; a repeat with other data; a segment
out of order. -/
theorem witness_SegmentsAreFoldedInOrder :
    loadSegment pressLoad 1 [0x35] ∧ pressLoad.byteCount.toNat + 1 ≤ 0xFFFFFFFF ∧
    (loadSegment { pressLoad with byteCount := 0xFFFFFFFE } 1 [0x35] ∧ (0xFFFFFFFE#32).toNat + 1 ≤ 0xFFFFFFFF) ∧
    (loadSegment pressLoad 0 [0x31, 0x32, 0x33, 0x34] ∧ crc32 [0x31, 0x32, 0x33, 0x34] = pressLoad.lastSegmentCrc) ∧
    (loadSegment pressLoad 0 [0x31, 0x32, 0x33, 0x35] ∧ crc32 [0x31, 0x32, 0x33, 0x35] ≠ pressLoad.lastSegmentCrc) ∧
    loadSegment pressLoad 2 [0x35] := by
  refine ⟨⟨?_, ?_⟩, by decide, ⟨⟨?_, ?_⟩, by decide⟩, ⟨⟨?_, ?_⟩, by decide +kernel⟩, ⟨⟨?_, ?_⟩, by decide +kernel⟩, ?_, ?_⟩ <;>
    first
    | exact oneLoadEach_of_check (by decide +kernel)
    | exact some_of_any (by decide +kernel)

/-- The activation of a load whose length and CRC are approved. -/
theorem witness_ActivationNeedsAnApprovedImage :
    ∃ c, commandOf (loadingPart.elapse 0).activeBank activateFrame = some c ∧
      ((loadingPart.elapse 0).mode = .enforce ∧ ReachesRules activateFrame (loadingPart.elapse 0) ∧
        c.cls = .loadActivate ∧ c.controller.imageCheck = 1 ∧
        ¬ NotPlaced (loadingPart.elapse 0) (after (.frameArrival 0 .net activateFrame) loadingPart)) :=
  some_of_any (by decide +kernel)

/-- Both results of the computation. -/
theorem witness_BoundGivesTheNearestGridPoint :
    (boundBand ⟨4900, 5100, 30, 5, false⟩ (some 5000) = (4970, 5030) ∧
      admissible ⟨4900, 5100, 30, 5, false⟩ (some 5000) 5127 = some 5030) ∧
    (boundBand ⟨4900, 4974, 3, 5, false⟩ (some 4974) = (4971, 4974) ∧
      admissible ⟨4900, 4974, 3, 5, false⟩ (some 4974) 4974 = none) := by decide +kernel

/-- The least and the greatest number of a type. -/
theorem witness_ValueBytesRoundTrip :
    typeMin .signed32 ≤ -2147483648 ∧ (-2147483648 : Int) ≤ typeMax .signed32 ∧
    typeMin .signed32 ≤ 2147483647 ∧ (2147483647 : Int) ≤ typeMax .signed32 := by decide

theorem witness_EnforcedWritesStayInTheBand :
    (∃ c, commandOf (running.elapse 0).activeBank (writeFrame 0x1A40 5127) = some c ∧
      ((running.elapse 0).mode = .enforce ∧ ReachesRules (writeFrame 0x1A40 5127) (running.elapse 0) ∧
        decidingRule (running.elapse 0).activeBank c = some 0 ∧ (running.elapse 0).activeBank.rules[0].action = 3 ∧
        (¬ ((running.elapse 0).activeBank.rules[0].freeInWindow = 1 ∧ inWindow (running.elapse 0) c.slot = true)) ∧
        valueTypeOfByte (running.elapse 0).activeBank.rules[0].valueType = some .signed32 ∧
        typeMin .signed32 ≤ boundNumber .signed32 (running.elapse 0).activeBank.rules[0].low ∧
        boundNumber .signed32 (running.elapse 0).activeBank.rules[0].high ≤ typeMax .signed32 ∧
        ¬ NotPlaced (running.elapse 0) (after (.frameArrival 0 .net (writeFrame 0x1A40 5127)) running))) :=
  some_of_any (by decide +kernel)

/-- The hypotheses of a response to one entry, its outcome and value. -/
def answeredEntry (e : Outstanding) (status : Byte) (positive : Bool) (value : Int) : Prop :=
  let s := { running with outstanding := [e] }
  ReachesTracker (responseOf status 5000) (s.elapse 0) ∧
  classifyUpstream (s.elapse 0).activeBank (readLayers (withoutFcs (responseOf status 5000))) =
    .response 0 pressProfile ∧
  readTag pressProfile (protocolPayload pressProfile (readLayers (withoutFcs (responseOf status 5000)))).bytes = some 7 ∧
  findEntry (s.elapse 0) 0 7 = some e ∧
  responsePositive pressProfile
    (protocolPayload pressProfile (readLayers (withoutFcs (responseOf status 5000)))).bytes = positive ∧
  readValue pressProfile (protocolPayload pressProfile (readLayers (withoutFcs (responseOf status 5000)))).bytes
    pressProfile.responseValueOffset .signed32 = some value

/-- A write confirmed, a read answered, a write refused. -/
theorem witness_ResponsesSettleTheirEntries :
    answeredEntry pressEntry 0 true 5000 ∧
    answeredEntry { pressEntry with kind := .read, forwarded := none } 0 true 5000 ∧
    answeredEntry pressEntry 1 false 5000 := by unfold answeredEntry; decide +kernel

/-- No entry; an entry one millisecond before its Deadline; at its Deadline. -/
theorem witness_ResponseTimeoutEndsTheEntry :
    findEntry (running.elapse 0) 0 7 = none ∧
    (findEntry (waitingPart.elapse 249) 0 7 = some pressEntry ∧ (waitingPart.elapse 249).clock < pressEntry.deadline) ∧
    (findEntry (waitingPart.elapse 250) 0 7 = some pressEntry ∧ pressEntry.deadline ≤ (waitingPart.elapse 250).clock) := by
  decide +kernel

theorem witness_WindowExpiryClosesTheWindow : OneLoadEach (inChange.elapse 0) :=
  oneLoadEach_of_check (by decide +kernel)

/-- No period; the end of one. -/
theorem witness_PermitLossClosesEveryWindow :
    OneLoadEach (inChange.elapse 0) ∧ (∀ e, (inChange.elapse 0).permitPeriod = some e → (inChange.elapse 0).clock < e) ∧
    (let s := { inChange with chgPermit := false, permitPeriod := some 20 }
    OneLoadEach (s.elapse 20) ∧ (s.elapse 20).permitPeriod = some 20 ∧ 20 ≤ (s.elapse 20).clock) :=
  ⟨oneLoadEach_of_check (by decide +kernel), fun _ h => (by cases h), oneLoadEach_of_check (by decide +kernel),
    by decide +kernel⟩

/-- A timer not yet due; one due. -/
theorem witness_IntervalExpiryScoresEverySlot :
    (let s := { loadingPart with intervalNext := some 1000 }
    OneLoadEach (s.elapse 999) ∧ ∀ e, (s.elapse 999).intervalNext = some e → (s.elapse 999).clock < e) ∧
    (let s := { loadingPart with intervalNext := some 1000 }
    OneLoadEach (s.elapse 1000) ∧ (s.elapse 1000).intervalNext = some 1000 ∧ 1000 ≤ (s.elapse 1000).clock) := by
  refine ⟨⟨oneLoadEach_of_check (by decide +kernel), fun e h => ?_⟩, oneLoadEach_of_check (by decide +kernel),
    by decide +kernel⟩
  have he : e = 1000 := by cases h; rfl
  subst he
  decide +kernel

/-- A record that is not idle yet; one at its Idle Deadline. -/
theorem witness_IdleExpiryAbortsTheRecord :
    (∀ r, (running.elapse 0).loads[(0 : Fin 4)] = some r → (running.elapse 0).clock < r.idleDeadline) ∧
    (loadingPart.elapse 30000).loads[0] = some pressLoad ∧ pressLoad.idleDeadline ≤ (loadingPart.elapse 30000).clock :=
  ⟨fun _ h => (by cases h), by decide +kernel⟩

theorem witness_RequestRowIsItsFramesArrival :
    requestRow 0x14 0 (request []) = some (.restart 0 (request [])) ∧ (request []).tagOk = true := by decide

/-- A DOWN port; a source that is not listed; four replies waiting. -/
theorem witness_UnacceptedRequestsAreOnlyCounted :
    requestRow 0x01 0 (request []) = some (.identify 0 (request [])) ∧
    (({ running with net := {} }.elapse 0).port .net).up = false ∧
    (let s := { running with settings := { sources := [desk] } }
    ((s.elapse 0).port .net).up = true ∧ 64 ≤ (request []).frameLength ∧ (request []).frameLength ≤ 1522 ∧
      (s.elapse 0).settings.sources ≠ [] ∧ (request []).source ∉ (s.elapse 0).settings.sources) ∧
    (let s := { running with net := { up := true, replyQueue := List.replicate 4 ⟨.notice, []⟩ } }
    ((s.elapse 0).port .net).up = true ∧ isGroup (request []).source = false ∧ (s.elapse 0).settings.sources = [] ∧
      4 ≤ ((s.elapse 0).port .net).replyQueue.length) := by decide +kernel

/-- Another Version; a payload longer than the frame; a lockout; the first and the third wrong token. -/
theorem witness_FailedTestsChangeOnlyTheTokenCount :
    requestRow 0x08 0 (request []) = some (.lockPolicy 0 (request [])) ∧ 0x08 ∈ tokenCodes ∧
    (Accepted { { request [] with version := 2 } with version := 1, payloadLength := 0 } (running.elapse 0) ∧
      ({ request [] with version := 2 } : Request).version ≠ 1) ∧
    (Accepted { { request [] with payloadLength := 37 } with version := 1, payloadLength := 0 } (running.elapse 0) ∧
      ({ request [] with payloadLength := 37 } : Request).payload.length < (37#16).toNat) ∧
    (Accepted (request []) ({ running with lockoutEnd := some 9 }.elapse 0) ∧
      ({ running with lockoutEnd := some 9 }.elapse 0).lockoutEnd = some 9) ∧
    (Accepted { request [] with token := 1 } (running.elapse 0) ∧ (running.elapse 0).lockoutEnd = none ∧
      ({ request [] with token := 1 } : Request).token ≠ (running.elapse 0).settings.token) ∧
    ({ running with tokenFailures := 2 }.elapse 0).tokenFailures = 2 := by decide +kernel

/-- Requests of another size than their own: with no payload to have, and one byte short. -/
theorem witness_FailedTestsChangeOnlyTheTokenCount_sizes :
    (requestRow 0x08 0 (request [0]) = some (.lockPolicy 0 (request [0])) ∧ Accepted (request [0]) (running.elapse 0) ∧
      requestSize 0x08 = some 0 ∧ (request [0]).payloadLength.toNat ≠ 0 ∧
      TokenPasses (request [0]) (running.elapse 0)) ∧
    (requestRow 0x11 0 (request (zeros 9)) = some (.setNoticeDestination 0 (request (zeros 9))) ∧
      Accepted (request (zeros 9)) (running.elapse 0) ∧ requestSize 0x11 = some 10 ∧
      (request (zeros 9)).payloadLength.toNat ≠ 10 ∧ (0x11 : Byte) ∉ tokenCodes) := by decide +kernel

/-- The last entry of a table, as many as a response holds, and slot 15. -/
theorem witness_QueriesAnswerAndChangeNothing :
    (Accepted (request []) (running.elapse 0) ∧ (request []).payloadLength = 0) ∧
    (let r := request [0, 5, 0, 215, 0, 41]
    Accepted r (running.elapse 0) ∧ r.payloadLength = 6 ∧ bankOfByte (byteAt r.payload 0) = some .a ∧
      tableOfByte (byteAt r.payload 1) = some .rules ∧ 1 ≤ (be16At r.payload 4).toNat ∧
      (be16At r.payload 4).toNat ≤ tableReadLimit .rules ∧
      (be16At r.payload 2).toNat + (be16At r.payload 4).toNat ≤ tableEntries .rules) ∧
    (let r := request [15, 0, 0, 0, 0, 0]
    Accepted r (running.elapse 0) ∧ r.payloadLength = 6 ∧ (byteAt r.payload 0).toNat = (15 : Fin 16).val) := by
  decide +kernel

/-- One entry more than a response holds, a run one past the end, and slot 16. -/
theorem witness_QueriesAnswerAndChangeNothing_refusals :
    (let r := request [1, 5, 0, 0, 0, 42]
    Accepted r (running.elapse 0) ∧ r.payloadLength = 6 ∧ tableOfByte (byteAt r.payload 1) = some .rules ∧
      tableReadLimit .rules < (be16At r.payload 4).toNat) ∧
    (let r := request [1, 5, 0, 216, 0, 41]
    Accepted r (running.elapse 0) ∧ r.payloadLength = 6 ∧ (bankOfByte (byteAt r.payload 0)).isSome = true ∧
      tableOfByte (byteAt r.payload 1) = some .rules ∧ 1 ≤ (be16At r.payload 4).toNat ∧
      (be16At r.payload 4).toNat ≤ tableReadLimit .rules ∧
      tableEntries .rules < (be16At r.payload 2).toNat + (be16At r.payload 4).toNat) ∧
    (Accepted (request [16, 0, 0, 0, 0, 0]) (running.elapse 0) ∧ (request [16, 0, 0, 0, 0, 0]).payloadLength = 6 ∧
      16 ≤ (byteAt (request [16, 0, 0, 0, 0, 0]).payload 0).toNat) := by decide +kernel

theorem witness_ReadStatusReportsTheState :
    (Accepted (request []) (inChange.elapse 0) ∧ (request []).payloadLength = 0) ∧
    (slotUsed (inChange.elapse 0).activeBank 15 = false ∧ slotUsed (inChange.elapse 0).activeBank 0 = true ∧
      (inChange.elapse 0).guards[0] = some { state := .window 600000 }) := by decide +kernel

/-- CLEAR, KEEP, and the first option that is neither. -/
theorem witness_ReadCountersTakesAndClears :
    (Accepted (request [0]) (running.elapse 0) ∧ (request [0]).payloadLength = 1 ∧
      (byteAt (request [0]).payload 0).toNat ≤ 1) ∧
    (Accepted (request [1]) (running.elapse 0) ∧ (byteAt (request [1]).payload 0).toNat ≤ 1) ∧
    (Accepted (request [2]) (running.elapse 0) ∧ 1 < (byteAt (request [2]).payload 0).toNat) := by decide +kernel

/-- A payload of 5 bytes, table 7, and a run one past the end. -/
theorem witness_InactiveBankTakesTheWrites_refusals :
    (running.elapse 0).lock = false ∧
    (Accepted (request (zeros 5)) (running.elapse 0) ∧ (request (zeros 5)).payloadLength.toNat < 6) ∧
    (let r := request ([7, 0] ++ beBytes 2 0 ++ beBytes 2 1)
    Accepted r (running.elapse 0) ∧ 6 ≤ r.payloadLength.toNat ∧ tableOfByte (byteAt r.payload 0) = none) ∧
    (let r := request ([4, 0] ++ beBytes 2 32 ++ beBytes 2 1 ++ [1, 7] ++ beBytes 6 5)
    Accepted r (running.elapse 0) ∧ 6 ≤ r.payloadLength.toNat ∧ be16At r.payload 4 ≠ 0 ∧
      tableOfByte (byteAt r.payload 0) = some .sources ∧
      tableEntries .sources < (be16At r.payload 2).toNat + (be16At r.payload 4).toNat) := by
  decide +kernel

/-- A run one byte short. -/
theorem witness_InactiveBankTakesTheWrites_length :
    (running.elapse 0).lock = false ∧
    (let r := request ([4, 0] ++ beBytes 2 31 ++ beBytes 2 1 ++ [1, 7] ++ beBytes 5 5)
    Accepted r (running.elapse 0) ∧ 6 ≤ r.payloadLength.toNat ∧ be16At r.payload 4 ≠ 0 ∧
      tableOfByte (byteAt r.payload 0) = some .sources ∧
      (be16At r.payload 2).toNat + (be16At r.payload 4).toNat ≤ tableEntries .sources ∧
      r.payloadLength.toNat ≠ 6 + (be16At r.payload 4).toNat * tableEntrySize .sources) := by
  decide +kernel

/-- The lock SET; the last entry of Sources written with it CLEAR; a copy. -/
theorem witness_InactiveBankTakesTheWrites :
    (Accepted (request []) ({ running with lock := true }.elapse 0) ∧
      ({ running with lock := true }.elapse 0).lock = true) ∧
    (let r := request ([4, 0] ++ beBytes 2 31 ++ beBytes 2 1 ++ [1, 7] ++ beBytes 6 5)
    Accepted r (running.elapse 0) ∧ (running.elapse 0).lock = false ∧
      tableOfByte (byteAt r.payload 0) = some .sources ∧ 1 ≤ (be16At r.payload 4).toNat ∧
      (be16At r.payload 2).toNat + (be16At r.payload 4).toNat ≤ tableEntries .sources ∧
      r.payloadLength.toNat = 6 + (be16At r.payload 4).toNat * tableEntrySize .sources) ∧
    (Accepted (request []) (running.elapse 0) ∧ (request []).payloadLength = 0) := by decide +kernel

/-- The lock SET; a bank that fails; a bank that passes. -/
theorem witness_CommitSwapsAPassingBank :
    (Accepted (request []) ({ running with lock := true }.elapse 0) ∧ (request []).payloadLength = 0 ∧
      ({ running with lock := true }.elapse 0).lock = true) ∧
    (let s := { running with bankB := { commonHead := 256 } }
    Accepted (request []) (s.elapse 0) ∧ (s.elapse 0).lock = false ∧
      firstFailure (s.elapse 0).station (s.elapse 0).inactiveBank = some (.bankHeader, 0)) ∧
    (Accepted (request []) (inChange.elapse 0) ∧ (inChange.elapse 0).lock = false ∧
      firstFailure (inChange.elapse 0).station (inChange.elapse 0).inactiveBank = none) := by decide +kernel

/-- The lock; PASSIVE to ENFORCE without a token; ENFORCE to PASSIVE with it; a mode that is neither. -/
theorem witness_LockAndModeAreSet :
    (Accepted (request []) (running.elapse 0) ∧ (request []).payloadLength = 0 ∧
      TokenPasses (request []) (running.elapse 0)) ∧
    (Accepted (request [2]) ({ running with mode := .passive }.elapse 0) ∧ (request [2]).payloadLength = 1 ∧
      byteAt (request [2]).payload 0 = 2 ∧ ({ running with mode := .passive }.elapse 0).mode ≠ .enforce) ∧
    (Accepted (request [1]) (running.elapse 0) ∧ (request [1]).payloadLength = 1 ∧
      byteAt (request [1]).payload 0 = 1 ∧ (running.elapse 0).mode = .enforce ∧
      TokenPasses (request [1]) (running.elapse 0)) ∧
    (Accepted (request [3]) (running.elapse 0) ∧ byteAt (request [3]).payload 0 ≠ 1 ∧
      byteAt (request [3]).payload 0 ≠ 2) := by decide +kernel

/-- Slots to open, at the longest duration and the shortest. -/
theorem witness_OpenWindowOpensTheMaskedSlots :
    Accepted (request [0, 1, 0xFF, 0xFF]) (inChange.elapse 0) ∧ (request [0, 1, 0xFF, 0xFF]).payloadLength = 4 ∧
    TokenPasses (request [0, 1, 0xFF, 0xFF]) (inChange.elapse 0) ∧ named (inChange.elapse 0) 1 = [0] ∧
    Accepted (request [0, 1, 0, 1]) (inChange.elapse 0) := by decide +kernel

theorem witness_CloseWindowClosesTheMaskedSlots :
    Accepted (request [0, 1]) (inChange.elapse 0) ∧ (request [0, 1]).payloadLength = 2 ∧
    OneLoadEach (inChange.elapse 0) ∧ (named (inChange.elapse 0) 1).filter (inWindow (inChange.elapse 0)) = [0] :=
  ⟨by decide +kernel, by decide +kernel, oneLoadEach_of_check (by decide +kernel), by decide +kernel⟩

theorem witness_ThawClearsTheFrozenSlots :
    Accepted (request [0, 1]) (frozenPart.elapse 0) ∧ (request [0, 1]).payloadLength = 2 ∧
    TokenPasses (request [0, 1]) (frozenPart.elapse 0) ∧
    (named (frozenPart.elapse 0) 1).filter (isFrozen (frozenPart.elapse 0)) = [0] := by decide +kernel

/-- No record asked for; 24, the most; slot 15 with scope ALL; slot byte 16; scope 2. -/
theorem witness_FetchAndForgetRemoveWhatTheySay :
    (Accepted (request [0]) (running.elapse 0) ∧ byteAt (request [0]).payload 0 = 0) ∧
    (Accepted (request [25]) (running.elapse 0) ∧ byteAt (request [25]).payload 0 ≠ 0 ∧
      24 = min (byteAt (request [25]).payload 0).toNat 24) ∧
    (let r := request [15, 1, 0, 0, 0, 0]
    Accepted r (running.elapse 0) ∧ r.payloadLength = 6 ∧ TokenPasses r (running.elapse 0) ∧
      (byteAt r.payload 0).toNat = (15 : Fin 16).val ∧ (byteAt r.payload 1).toNat ≤ 1) ∧
    (let r := request [16, 0, 0, 0, 0, 0]
    Accepted r (running.elapse 0) ∧ 16 ≤ (byteAt r.payload 0).toNat) ∧
    (let r := request [0, 2, 0, 0, 0, 0]
    Accepted r (running.elapse 0) ∧ 1 < (byteAt r.payload 1).toNat) := by
  refine ⟨?_, ?_, ?_, ?_, ?_⟩ <;> decide +kernel

/-- Settings with four sources, as many as there are places. -/
def fullSettings : Settings :=
  { sources := [press, oven, cart, desk], cellManagement := true, startEnforce := true, token := 9 }

/-- The request that carries them. -/
def fullRequest : Request :=
  request ([4, 1, 2, 0] ++ fullSettings.sources.flatMap (fun a => beBytes 6 a.toNat) ++ beBytes 8 9)

/-- A zero address; VLAN byte 2; VLAN bytes 0 and 1; four sources; a fifth. -/
theorem witness_SettingsAreReplaced :
    (let r := request (zeros 10)
    Accepted r (running.elapse 0) ∧ r.payloadLength = 10 ∧ be48At r.payload 0 = 0) ∧
    (let r := request (beBytes 6 office.toNat ++ [2, 0, 0, 0])
    Accepted r (running.elapse 0) ∧ be48At r.payload 0 ≠ 0 ∧ 1 < (byteAt r.payload 6).toNat) ∧
    (let r := request (beBytes 6 office.toNat ++ [1, 0, 0x20, 5])
    Accepted r (running.elapse 0) ∧ be48At r.payload 0 ≠ 0 ∧ byteAt r.payload 6 = 1) ∧
    (Accepted fullRequest (running.elapse 0) ∧ fullRequest.payloadLength = 36 ∧ TokenPasses fullRequest (running.elapse 0) ∧
      SettingsLegal fullSettings ∧ fullSettings.notice = (running.elapse 0).settings.notice ∧
      ([] : List Byte).length = 24 - 6 * fullSettings.sources.length ∧
      fullRequest.payload =
        [BitVec.ofNat 8 fullSettings.sources.length, if fullSettings.cellManagement = true then 1 else 0,
          if fullSettings.startEnforce = true then 2 else 1, if fullSettings.lockAtStart = true then 1 else 0] ++
        fullSettings.sources.flatMap (fun a => beBytes 6 a.toNat) ++ [] ++ beBytes 8 fullSettings.token.toNat ++ []) ∧
    (let r := request ([5, 0, 1, 0] ++ zeros 32)
    Accepted r (running.elapse 0) ∧ r.payloadLength = 36 ∧ TokenPasses r (running.elapse 0) ∧
      4 < (byteAt r.payload 0).toNat) := by
  refine ⟨by decide +kernel, by decide +kernel, by decide +kernel,
    ⟨by decide +kernel, by decide +kernel, by decide +kernel, ?_, by decide +kernel⟩, by decide +kernel⟩
  refine ⟨by decide, fun a ha => ?_, by decide⟩
  fin_cases ha <;> decide

/-- A SAVE under way; none, and no restart pending; a restart pending. -/
theorem witness_SaveAndRestartAreAccepted :
    (Accepted (request []) (savingPart.elapse 0) ∧ TokenPasses (request []) (savingPart.elapse 0) ∧
      (savingPart.elapse 0).save.isSome = true) ∧
    (Accepted (request []) (running.elapse 0) ∧ (request []).payloadLength = 0 ∧
      TokenPasses (request []) (running.elapse 0) ∧ (running.elapse 0).save = none ∧
      (running.elapse 0).restartPending = false ∧ memoryWf (running.elapse 0).memory = true) ∧
    (Accepted (request []) ({ running with restartPending := true }.elapse 0) ∧
      ({ running with restartPending := true }.elapse 0).restartPending = true ∧
      ({ running with restartPending := true }.elapse 0).save = none) := by decide +kernel

/-- The longest payload, and a tagged request. -/
theorem witness_ResponseFrameIsLaidOut :
    ({ request [] with vlanTag := some 0x8100200F#32 } : Request).tagOk = true ∧ (zeros 1484).length ≤ 1484 :=
  ⟨by decide, by simp⟩

theorem witness_EnforceIsLeftOnlyWithTheToken :
    running.mode = .enforce ∧
    ∃ t, exec (.setMode 0 (request [1])) running = .next t ∧ t.mode = .passive :=
  ⟨rfl, after (.setMode 0 (request [1])) running, rfl, by decide +kernel⟩

theorem witness_LockedPolicyDoesNotChange :
    let s := { running with lock := true }
    s.lock = true ∧ s.mode ≠ .starting ∧
    ∃ t, exec (.commit 0 (request [])) s = .next t ∧ t.mode ≠ .starting :=
  ⟨rfl, by decide, after (.commit 0 (request [])) { running with lock := true }, rfl, by decide +kernel⟩

theorem running_steps : ∃ t, step running = .next t := ⟨_, rfl⟩

theorem witness_MemoryStaysCanonical : MemoryCanonical running ∧ ∃ t, step running = .next t :=
  ⟨by decide, running_steps⟩

theorem witness_QueuesStayBounded : QueuesBounded running ∧ ∃ t, step running = .next t :=
  ⟨by decide, running_steps⟩

theorem witness_TablesStayBounded : TablesBounded waitingPart ∧ ∃ t, step waitingPart = .next t :=
  ⟨⟨by decide, by decide, oneLoadEach_of_check (by decide +kernel)⟩, _, rfl⟩

theorem witness_GuardsStaySound : GuardsSound frozenPart ∧ ∃ t, step frozenPart = .next t := by
  refine ⟨⟨by decide +kernel, ⟨fun _ => ⟨0, { state := .frozen }, rfl, rfl⟩, fun _ => rfl⟩, fun _ i g d hg hd => ?_⟩, _, rfl⟩
  have h : ∀ i : Fin 16, (frozenPart.guards[i].map (fun g => windowDeadline frozenPart i)) ≠ some (some d) := by
    intro i
    have hw : ∀ i : Fin 16, windowDeadline frozenPart i = none := by decide +kernel
    rw [hw i]
    cases frozenPart.guards[i] <;> simp
  refine h i ?_
  rw [hg]
  simp only [Option.map_some, windowDeadline, guardOf, hg, hd]

theorem witness_ActiveBankStaysConsistent : BankConsistent running ∧ ∃ t, step running = .next t :=
  ⟨by decide +kernel, running_steps⟩

theorem witness_NoDeadlineIsPassedOver : DeadlinesAhead waitingPart ∧ ∃ t, step waitingPart = .next t :=
  ⟨⟨noneBefore_of_check (by decide +kernel), by decide⟩, _, rfl⟩

theorem witness_EventsStayInOrder :
    let s := { waitingPart with events := [{ time := 0, kind := .started }] }
    DeadlinesAhead s ∧ EventsOrdered s ∧ ∃ t, step s = .next t :=
  ⟨⟨noneBefore_of_check (by decide +kernel), by decide⟩, by decide, _, rfl⟩

/-! ### Witnesses: further clauses of the same statements -/

/-- A blank memory, and one that holds a header whose Save Mark is INCOMPLETE. -/
theorem witness_StartWithoutMemoryFallsBack_images :
    be32At (memoryRun 16 headerAddress (State.reset.elapse 0).memory) 0 ≠ imageMarker ∧
    (let s := { State.reset with memory := memoryWrite [] headerAddress (headerBytes markIncomplete []) }
    (s.elapse 0).resetN = true ∧ (s.elapse 0).mode = .starting ∧
      be32At (memoryRun 16 headerAddress (s.elapse 0).memory) 0 = imageMarker ∧
      byteAt (memoryRun 16 headerAddress (s.elapse 0).memory) 5 ≠ markComplete) := by decide +kernel

theorem witness_SaveEndLeavesTheImage_idle : (running.elapse 0).save = none := rfl

/-- The response of a RESTART waits behind a frame; it is the frame that is sent. -/
theorem witness_LinkDownEmptiesThePort_restart :
    let s := { running with
      restartPending := true
      net := { up := true, transmitter := .forward [1], replyQueue := [⟨.restartResponse, [2]⟩] } }
    (s.elapse 0).resetN = true ∧ (s.elapse 0).mode ≠ .starting ∧ (s.elapse 0).link .net = true ∧
    ∃ r ∈ transmitterReplies ((s.elapse 0).port .net).transmitter ++ ((s.elapse 0).port .net).replyQueue,
      r.kind = .restartResponse := by decide +kernel

/-- A busy transmitter, a waiting frame, a port that sends at once, and a RESTART's response sent. -/
theorem witness_TransmissionCompleteFreesAndGrants_placed :
    ({ up := true, transmitter := .forward [1] } : PortState).transmitter ≠ .free ∧
    ({ up := true, forwardQueue := [[1]] } : PortState).forwardQueue ≠ [] ∧
    (let ps : PortState := { up := true }
    ps.up = true ∧ ps.transmitter = .free ∧ ps.forwardQueue = [] ∧ ps.replyQueue = []) ∧
    (({ running with net := { up := true, transmitter := .reply ⟨.restartResponse, [2]⟩ } }.elapse 0).port
      .net).transmitter = .reply ⟨.restartResponse, [2]⟩ := by decide +kernel

/-- A running part in PASSIVE. -/
def watching : State := { running with mode := .passive }

/-- The hypotheses of the comparison with ENFORCE, and the kind of the first record ENFORCE makes. -/
def mirrored (s : State) (frame : List Byte) (kind : EventKind) : Prop :=
  ((s.elapse 0).mode = .passive ∧ ReachesRules frame (s.elapse 0) ∧ BankConsistent (s.elapse 0) ∧
    (s.elapse 0).events.length ≤ 60) ∧
  (∀ c, commandOf (s.elapse 0).activeBank frame = some c →
    checksumFails { s.elapse 0 with mode := .enforce } c (readLayers (withoutFcs frame)) = false) ∧
  (s.elapse 0).events = [] ∧ kinds (after (.frameArrival 0 .net frame) { s with mode := .enforce }) = [kind]

/-- As many Outstanding entries as there are places, none with tag 7. -/
def fullTable : List Outstanding := (List.range 64).map (fun n => { pressEntry with tag := BitVec.ofNat 32 (n + 100) })

/-- A clamp, a denial, and a write that finds no room. -/
theorem witness_PassivePlacesEveryFrameUnchanged_mirror :
    mirrored watching (writeFrame 0x1A40 5127) .valueClamped ∧ mirrored watching (writeFrame 0x1A4F 5000) .denied ∧
    mirrored { watching with outstanding := fullTable } (writeFrame 0x1A40 5000) .trackFull := by
  refine ⟨⟨?_, ?_, ?_⟩, ⟨?_, ?_, ?_⟩, ⟨?_, ?_, ?_⟩⟩ <;>
    first
    | exact all_of_all (by decide +kernel)
    | decide +kernel

/-- A segment whose Segment Length passes the end of the frame. -/
def longSegment : List Byte := pressFrame press desk ([0x21, 0] ++ beBytes 2 7 ++ zeros 4 ++ beBytes 2 0 ++ beBytes 2 35)

theorem witness_FramesWithoutAChain_malformed :
    (running.elapse 0).mode = .enforce ∧ ReachesRules longSegment (running.elapse 0) ∧
    classifyDownstream (running.elapse 0).activeBank (readLayers (withoutFcs longSegment)) =
      .command 0 0 pressProfile ∧
    MalformedAs (running.elapse 0).activeBank 0 pressProfile (readLayers (withoutFcs longSegment)) .segmentLength
      none := by
  refine ⟨rfl, by decide +kernel, by decide +kernel, .inr (.inr ⟨fun h => absurd h.1 (by decide), 0x21, by decide +kernel,
    .inr ?_⟩)⟩
  decide +kernel

theorem noIpv4 : readIpv4 (readLayers (withoutFcs (responseOf 0 0))) = none := by decide +kernel

/-- A bank that passes, a slot of it, and frames its Profile accepts in both directions. -/
theorem witness_FramesWithoutAChain_kinds :
    firstFailure State.reset.station pressBank = none ∧ slotUsed pressBank 0 = true ∧
    pressBank.controllers[0].profile.toNat = (0 : Fin 8).val ∧ pressBank.controllers[0].address = press ∧
    Recognised pressBank.profiles[0] true (readLayers (withoutFcs (writeFrame 0x1A40 5000))) ∧
    Recognised pressBank.profiles[0] false (readLayers (withoutFcs (responseOf 0 0))) ∧
    isUsed pressBank.codeMap[codeMapIndex 0 1].used = true :=
  ⟨by decide +kernel, by decide, by decide, by decide, .inl ⟨rfl, by decide +kernel, .inl rfl⟩,
    .inl ⟨rfl, by decide +kernel, .inr fun _ h => by rw [noIpv4] at h; cases h⟩, by decide⟩

/-- A running part whose rule on 1A40H has another action. -/
def withAction (action : Byte) : State :=
  { running with bankA := { pressBank with rules := pressBank.rules.set 0 { pressBank.rules[0] with action := action } } }

/-- A bank that passes; a write under a DENY rule; one under a WINDOW rule outside a window. -/
theorem witness_FrozenAndUnruledCommandsAreDenied_rules :
    (firstFailure State.reset.station pressBank = none ∧ slotUsed pressBank 0 = true) ∧
    (∃ c, commandOf ((withAction 1).elapse 0).activeBank (writeFrame 0x1A40 5000) = some c ∧
      (((withAction 1).elapse 0).mode = .enforce ∧ ReachesRules (writeFrame 0x1A40 5000) ((withAction 1).elapse 0) ∧
        guardOf ((withAction 1).elapse 0) c.slot ≠ some .frozen ∧
        decidingRule ((withAction 1).elapse 0).activeBank c = some 0 ∧
        ((withAction 1).elapse 0).activeBank.rules[0].action = 1)) ∧
    (∃ c, commandOf ((withAction 2).elapse 0).activeBank (writeFrame 0x1A40 5000) = some c ∧
      (guardOf ((withAction 2).elapse 0) c.slot ≠ some .frozen ∧
        decidingRule ((withAction 2).elapse 0).activeBank c = some 0 ∧
        ((withAction 2).elapse 0).activeBank.rules[0].action = 2 ∧ inWindow ((withAction 2).elapse 0) c.slot = false)) :=
  ⟨by decide +kernel, some_of_any (by decide +kernel), some_of_any (by decide +kernel)⟩

/-- A READ, tag 7, from the press. -/
def readFrame (object : Nat) : List Byte := pressFrame press desk ([1, 0] ++ beBytes 2 7 ++ beBytes 4 object)

/-- The hypotheses of a command permitted unread: a READ that no rule covers by itself. -/
theorem witness_BoundedWritesAreTrackedAsTheyLeave_read :
    (∃ c, commandOf (running.elapse 0).activeBank (readFrame 0x1A40) = some c ∧
      (ReachesRules (readFrame 0x1A40) (running.elapse 0) ∧ c.cls = .read ∧
        decidingRule (running.elapse 0).activeBank c = none ∧
        (plainEntry (running.elapse 0) c).all (fun e => hasRoom (running.elapse 0) e.slot e.tag) = true)) ∧
    (let s := { running with outstanding := fullTable }
    ∃ c, commandOf (s.elapse 0).activeBank (readFrame 0x1A40) = some c ∧
      (c.cls = .read ∧ decidingRule (s.elapse 0).activeBank c = none ∧
        (plainEntry (s.elapse 0) c).all (fun e => hasRoom (s.elapse 0) e.slot e.tag) = false)) :=
  ⟨some_of_any (by decide +kernel), some_of_any (by decide +kernel)⟩

/-- A write permitted unread, with room and without. -/
theorem witness_BoundedWritesAreTrackedAsTheyLeave_unread :
    (∃ c, commandOf ((withAction 0).elapse 0).activeBank (writeFrame 0x1A40 5000) = some c ∧
      (ReachesRules (writeFrame 0x1A40 5000) ((withAction 0).elapse 0) ∧ c.cls = .writeValue ∧
        guardOf ((withAction 0).elapse 0) c.slot ≠ some .frozen ∧
        decidingRule ((withAction 0).elapse 0).activeBank c = some 0 ∧
        ((withAction 0).elapse 0).activeBank.rules[0].action = 0 ∧
        (plainEntry ((withAction 0).elapse 0) c).all (fun e => hasRoom ((withAction 0).elapse 0) e.slot e.tag) = true)) ∧
    (let s := { withAction 0 with outstanding := fullTable }
    ∃ c, commandOf (s.elapse 0).activeBank (writeFrame 0x1A40 5000) = some c ∧
      (guardOf (s.elapse 0) c.slot ≠ some .frozen ∧ decidingRule (s.elapse 0).activeBank c = some 0 ∧
        (plainEntry (s.elapse 0) c).all (fun e => hasRoom (s.elapse 0) e.slot e.tag) = false)) :=
  ⟨some_of_any (by decide +kernel), some_of_any (by decide +kernel)⟩

/-- A part whose Profile 0 is another. -/
def withProfile (p : Profile) : State :=
  { running with bankA := { pressBank with profiles := pressBank.profiles.set 0 p } }

/-- The datagram of 04 section 4.9 that writes 5127, with a UDP checksum. -/
def datagramFrame (checksum : Nat) : List Byte :=
  let f := beBytes 6 press.toNat ++ beBytes 6 desk.toNat ++ [0x08, 0x00, 0x45, 0, 0, 40, 0, 0, 0, 0, 64, 17, 0, 0] ++
    beBytes 4 0x0A140005 ++ beBytes 4 0x0A140121 ++ [0xC0, 0x30, 0x76, 0xD2, 0, 20] ++ beBytes 2 checksum ++
    [2, 0, 1, 7, 0, 0, 0x1A, 0x40, 0, 0, 0x14, 7]
  withFcs (f ++ zeros (60 - f.length))

/-- The press protocol over UDP. -/
def udpPart : State := withProfile { pressProfile with kind := 1, matchValue := 0x76D2 }

/-- A value cut off by the end of the frame; a clamp with a bad checksum; a value without room for its entry. -/
theorem witness_BoundedWritesAreTrackedAsTheyLeave_denied :
    (let s := withProfile { pressProfile with valueOffset := 45 }
    ∃ c, commandOf (s.elapse 0).activeBank (writeFrame 0x1A40 5000) = some c ∧
      (c.cls = .writeValue ∧ decidingRule (s.elapse 0).activeBank c = some 0 ∧
        readValue c.profile c.payload.bytes c.profile.valueOffset .signed32 = none)) ∧
    (∃ c, commandOf (udpPart.elapse 0).activeBank (datagramFrame 1) = some c ∧
      (ReachesRules (datagramFrame 1) (udpPart.elapse 0) ∧ c.cls = .writeValue ∧
        decidingRule (udpPart.elapse 0).activeBank c = some 0 ∧
        readValue c.profile c.payload.bytes c.profile.valueOffset .signed32 = some 5127 ∧
        boundOutcome (boundRuleOf .signed32 (udpPart.elapse 0).activeBank.rules[0]) none 5127 = .clamp 5100 ∧
        reference (udpPart.elapse 0) c.slot c.object = none ∧
        checksumFails (udpPart.elapse 0) c (readLayers (withoutFcs (datagramFrame 1))) = true)) ∧
    (let s := { running with outstanding := fullTable }
    ∃ c, commandOf (s.elapse 0).activeBank (writeFrame 0x1A40 5000) = some c ∧
      (c.tag = some 7 ∧ hasRoom (s.elapse 0) c.slot 7 = false)) :=
  ⟨some_of_any (by decide +kernel), some_of_any (by decide +kernel), some_of_any (by decide +kernel)⟩

/-- LOAD_BEGIN, tag 7, to the press. -/
def beginFrame : List Byte := pressFrame press desk ([0x10, 0] ++ beBytes 2 7)

/-- The hypotheses of a load command of a class permitted by the rule for the load classes. -/
def loadCommand (s : State) (frame : List Byte) (cls : CommandClass) : Prop :=
  OneLoadEach (s.elapse 0) ∧
  ∃ c, commandOf (s.elapse 0).activeBank frame = some c ∧
    ((s.elapse 0).mode = .enforce ∧ ReachesRules frame (s.elapse 0) ∧ c.cls = cls ∧ c.slot = 0 ∧ c.source = desk ∧
      c.controller.imageCheck = 1 ∧ guardOf (s.elapse 0) c.slot ≠ some .frozen ∧
      decidingRule (s.elapse 0).activeBank c = some 2 ∧ (s.elapse 0).activeBank.rules[2].action = 0 ∧
      c.tag = some 7 ∧ hasRoom (s.elapse 0) c.slot 7 = true)

/-- Such a command is permitted unread. -/
theorem loadCommand_permitted {s : State} {frame : List Byte} {cls : CommandClass} (h : loadCommand s frame cls) :
    ∃ c, commandOf (s.elapse 0).activeBank frame = some c ∧ PermittedUnread (s.elapse 0) c := by
  obtain ⟨-, c, hc, -, -, -, -, -, -, -, hk, ha, -⟩ := h
  exact ⟨c, hc, .inr ⟨2, hk, .inl ha⟩⟩

/-- Every Download Slot taken by another controller. -/
def crowded : State :=
  { running with loads := Vector.ofFn (fun d => some { pressLoad with controller := ⟨d.val + 1, by omega⟩ }) }

/-- LOAD_BEGIN with a record to restart, with the second slot free, and with none free. -/
theorem witness_SegmentsAreFoldedInOrder_begin :
    (loadCommand loadingPart beginFrame .loadBegin ∧ (loadingPart.elapse 0).loads[0] = some pressLoad) ∧
    (let s := { running with loads := running.loads.set 0 (some { pressLoad with controller := 1 }) }
    loadCommand s beginFrame .loadBegin ∧ (s.elapse 0).loads[1] = none ∧ (s.elapse 0).loads[0] ≠ none) ∧
    (loadCommand crowded beginFrame .loadBegin ∧
      ∀ d : Fin 4, (crowded.elapse 0).loads[d].any (fun r => decide (r.controller ≠ 0)) = true) := by
  refine ⟨⟨⟨oneLoadEach_of_check ?_, some_of_any ?_⟩, ?_⟩, ⟨⟨oneLoadEach_of_check ?_, some_of_any ?_⟩, ?_⟩,
    ⟨⟨oneLoadEach_of_check ?_, some_of_any ?_⟩, ?_⟩⟩ <;> decide +kernel

/-- A segment from another source, and one past the greatest Byte Count; a segment and an activation without a record; an
activation that an image matches, and one that none does. -/
theorem witness_SegmentsAreFoldedInOrder_refused :
    (let s := { running with loads := running.loads.set 0 (some { pressLoad with source := oven }) }
    loadCommand s (segmentFrame 1 [0x35]) .loadSegment) ∧
    (let s := { running with loads := running.loads.set 0 (some { pressLoad with byteCount := 0xFFFFFFFF }) }
    loadCommand s (segmentFrame 1 [0x35]) .loadSegment ∧ 0xFFFFFFFF < (0xFFFFFFFF#32).toNat + 1) ∧
    (loadCommand running (segmentFrame 1 [0x35]) .loadSegment ∧ loadCommand running activateFrame .loadActivate ∧
      (running.elapse 0).loads = Vector.replicate 4 none) ∧
    (loadCommand loadingPart activateFrame .loadActivate ∧
      matchImage (loadingPart.elapse 0).activeBank 0 pressLoad = some 4 ∧
      matchImage (loadingPart.elapse 0).activeBank 0 { pressLoad with byteCount := 5 } = none) := by
  refine ⟨⟨oneLoadEach_of_check ?_, some_of_any ?_⟩, ⟨⟨oneLoadEach_of_check ?_, some_of_any ?_⟩, ?_⟩,
    ⟨⟨oneLoadEach_of_check ?_, some_of_any ?_⟩, ⟨oneLoadEach_of_check ?_, some_of_any ?_⟩, ?_⟩,
    ⟨⟨oneLoadEach_of_check ?_, some_of_any ?_⟩, ?_⟩⟩ <;> decide +kernel

/-- No entry, also while NET is DOWN; a load-kind entry refused, one accepted; a READ answer cut off. -/
theorem witness_ResponsesSettleTheirEntries_others :
    (∀ slot tag, findEntry (running.elapse 0) slot tag = none) ∧ ReachesTracker (responseOf 0 0) (running.elapse 0) ∧
    ReachesTracker (responseOf 0 0) ({ running with net := {} }.elapse 0) ∧
    answeredEntry { pressEntry with kind := .segment, downloadSlot := some 0 } 1 false 5000 ∧
    answeredEntry { pressEntry with kind := .activate, downloadSlot := some 0 } 0 true 5000 ∧
    (let s := { withProfile { pressProfile with responseValueOffset := 45 } with
      outstanding := [{ pressEntry with kind := .read, forwarded := none }] }
    ReachesTracker (responseOf 0 0) (s.elapse 0) ∧
      classifyUpstream (s.elapse 0).activeBank (readLayers (withoutFcs (responseOf 0 0))) =
        .response 0 { pressProfile with responseValueOffset := 45 } ∧
      readValue { pressProfile with responseValueOffset := 45 }
        (protocolPayload pressProfile (readLayers (withoutFcs (responseOf 0 0)))).bytes 45 .signed32 = none) := by
  unfold answeredEntry
  exact ⟨fun _ _ => rfl, by decide +kernel, by decide +kernel, by decide +kernel, by decide +kernel, by decide +kernel⟩

/-- A segment's entry at its Deadline. -/
theorem witness_ResponseTimeoutEndsTheEntry_load :
    let e := { pressEntry with kind := .segment, downloadSlot := some 0 }
    let s := { loadingPart with outstanding := [e] }
    findEntry (s.elapse 250) 0 7 = some e ∧ e.deadline ≤ (s.elapse 250).clock := by decide +kernel

/-- A window at its deadline. -/
theorem witness_WindowExpiryClosesTheWindow_due :
    let s := { inChange with clock := 599999 }
    OneLoadEach (s.elapse 1) ∧ guardOf (s.elapse 1) 0 = some (.window 600000) ∧ 600000 ≤ (s.elapse 1).clock :=
  ⟨oneLoadEach_of_check (by decide +kernel), by decide +kernel⟩

/-- A period not ended at 19 ms; its expiry at 20 ms. -/
theorem witness_PermitPinStartsAndCancelsThePeriod :
    let s := { running with chgPermit := true, permitPeriod := some 20 }
    (∀ e, (s.elapse 19).permitPeriod = some e → (s.elapse 19).clock < e) ∧
    ∃ w, exec (.permitFilterExpiry 20) s = .next w ∧ w.permit = true :=
  ⟨all_of_all (by decide +kernel), after (.permitFilterExpiry 20) { running with chgPermit := true, permitPeriod := some 20 },
    rfl, by decide +kernel⟩

/-- A period that ends with the pin high. -/
theorem witness_PermitLossClosesEveryWindow_taken :
    let s := { running with chgPermit := true, permitPeriod := some 20 }
    OneLoadEach (s.elapse 20) ∧ (s.elapse 20).permitPeriod = some 20 ∧ 20 ≤ (s.elapse 20).clock ∧
      (s.elapse 20).chgPermit = true :=
  ⟨oneLoadEach_of_check (by decide +kernel), by decide +kernel⟩

/-- An expiry that freezes a slot in WINDOW. -/
theorem witness_IntervalExpiryScoresEverySlot_freezes :
    let s := { inChange with
      intervalNext := some 1000
      guards := inChange.guards.set 0 (some { state := .window 600000, intervalCount := 3 }) }
    OneLoadEach (s.elapse 1000) ∧ (s.elapse 1000).intervalNext = some 1000 ∧ 1000 ≤ (s.elapse 1000).clock ∧
      freezes (s.elapse 1000) 0 = true ∧ inWindow (s.elapse 1000) 0 = true :=
  ⟨oneLoadEach_of_check (by decide +kernel), by decide +kernel⟩

/-- SET_MODE from ENFORCE to PASSIVE with a wrong token, and in a lockout. -/
theorem witness_FailedTestsChangeOnlyTheTokenCount_mode :
    (let r := { request [1] with token := 1 }
    requestRow 0x09 0 r = some (.setMode 0 r) ∧ Accepted r (running.elapse 0) ∧
      NeedsToken 0x09 r (running.elapse 0) ∧ (running.elapse 0).lockoutEnd = none ∧
      r.token ≠ (running.elapse 0).settings.token) ∧
    (let s := { running with lockoutEnd := some 9 }
    Accepted (request [1]) (s.elapse 0) ∧ NeedsToken 0x09 (request [1]) (s.elapse 0) ∧
      (s.elapse 0).lockoutEnd = some 9) := by decide +kernel

theorem no_chain_from_256 (b : Bank) : ¬ ∃ l, ChainFrom b 256 l := by
  rintro ⟨l, hl⟩
  cases l with
  | nil => exact absurd (show (256 : BitVec 16) = chainEnd from hl) (by decide)
  | cons i rest =>
    have hi : ruleIndex 256 = some i := hl.1
    exact absurd hi (by rw [show ruleIndex 256 = none by decide]; simp)

/-- A common chain that begins at no rule. -/
theorem witness_CommitSwapsAPassingBank_broken :
    let s := { running with bankB := { commonHead := 256 } }
    Accepted (request []) (s.elapse 0) ∧ (request []).payloadLength = 0 ∧ (s.elapse 0).lock = false ∧
      ¬ PassingBank (s.elapse 0).station (s.elapse 0).inactiveBank := by
  exact ⟨by decide +kernel, rfl, rfl, fun h => no_chain_from_256 _ h.1⟩

/-- An Outstanding entry whose Deadline lies before the end of the time that passes. -/
theorem witness_NoDeadlineIsPassedOver_taken :
    DeadlinesAhead waitingPart ∧ waitingPart.resetN = true ∧
    earliest (deadlines waitingPart) = some (250, .response 0 7) ∧ 250 < waitingPart.clock + 251 :=
  ⟨⟨noneBefore_of_check (by decide +kernel), by decide⟩, rfl, by decide +kernel, by decide⟩

/-- An identity record that is right: an address and its CRC (R165). A settings block that fails for its start mode, and
one that passes. -/
theorem witness_StartWithoutMemoryFallsBack_records :
    (let m := memoryWrite [] 0 (beBytes 6 oven.toNat ++ beBytes 4 (crc32 (beBytes 6 oven.toNat)).toNat)
    be48At (memoryRun 6 0 m) 0 = oven ∧ be32At (memoryRun 4 6 m) 0 = crc32 (memoryRun 6 0 m) ∧
      isGroup oven = false ∧ oven ≠ 0) ∧
    SettingsFail (zeros 48) ∧ ¬ SettingsFail ([0, 0, 1] ++ zeros 45) := by
  refine ⟨by decide +kernel, ?_, ?_⟩
  · exact Or.inr (Or.inr (Or.inr (Or.inl (by decide))))
  · unfold SettingsFail
    rintro (h | ⟨k, hk, _⟩ | h | h | h | h | h)
    · exact absurd h (by decide)
    · exact absurd hk (by rw [show (byteAt ([0, 0, 1] ++ zeros 45) 0).toNat = 0 by decide]; omega)
    all_goals exact absurd h (by decide)

/-- The hypotheses of a rewrite with 5030 of the write of 5127 to 1A40H. -/
def rewritten (s : State) (frame : List Byte) : Prop :=
  ∃ c, commandOf s.activeBank frame = some c ∧
    (readValue c.profile c.payload.bytes c.profile.valueOffset .signed32 = some 5127 ∧
      typeMin .signed32 ≤ 5030 ∧ (5030 : Int) ≤ typeMax .signed32)

/-- A frame of ETHERTYPE kind, a datagram with a checksum and one without. -/
theorem witness_EnforcedWritesStayInTheBand_rewrite :
    rewritten running (writeFrame 0x1A40 5127) ∧ rewritten udpPart (datagramFrame 0x8227) ∧
    rewritten udpPart (datagramFrame 0) :=
  ⟨some_of_any (by decide +kernel), some_of_any (by decide +kernel), some_of_any (by decide +kernel)⟩

/-- A key that is held; a new key with room, and without. -/
theorem witness_ResponsesSettleTheirEntries_shadow :
    let e (n : Nat) : ShadowEntry := { slot := 0, object := BitVec.ofNat 32 n, value := 1, origin := .learned, lastUpdate := n }
    (([e 1, e 2].length ≤ 512 ∧ ([e 1, e 2].map (fun x => (x.slot, x.object))).Nodup ∧
      [e 1, e 2] = [] ++ e 1 :: [e 2] ∧ ∀ x ∈ [e 1, e 2], (x.slot, x.object) ≠ ((e 3).slot, (e 3).object)) ∧
    (let full := (List.range 512).map e
    full.length = 512 ∧ (full.map (fun x => (x.slot, x.object))).Nodup ∧
      ∀ x ∈ full, (x.slot, x.object) ≠ ((e 512).slot, (e 512).object))) := by
  refine ⟨by decide, by simp, ?_, ?_⟩
  · rw [List.map_map, List.nodup_map_iff_inj_on List.nodup_range]
    intro a ha b hb h
    have ha := List.mem_range.mp ha
    have hb := List.mem_range.mp hb
    have h : BitVec.ofNat 32 a = BitVec.ofNat 32 b := (Prod.mk.inj h).2
    have h := congrArg BitVec.toNat h
    simp only [BitVec.toNat_ofNat] at h
    omega
  · intro x hx
    obtain ⟨n, hn, rfl⟩ := List.mem_map.mp hx
    have hn := List.mem_range.mp hn
    intro h
    have h := congrArg BitVec.toNat (Prod.mk.inj h).2
    simp only [BitVec.toNat_ofNat] at h
    omega

/-- The Codes next to those of the rows, and one of 80H or above. -/
theorem witness_FailedTestsChangeOnlyTheTokenCount_code :
    requestRow 0x00 0 (request []) = none ∧ requestRow 0x15 0 (request []) = none ∧
    requestRow 0x90 0 (request []) = none ∧ (request []).tagOk = true ∧
    Accepted { request [] with version := 1, payloadLength := 0 } (running.elapse 0) := by decide +kernel

/-- A common chain that begins at no rule fails first. -/
theorem witness_CommitSwapsAPassingBank_first :
    let s := { running with bankB := { commonHead := 256 } }
    FirstToFail (s.elapse 0).station (s.elapse 0).inactiveBank .bankHeader 0 := by
  refine ⟨⟨rfl, Or.inl (fun h => ?_)⟩, fun t k h => ?_⟩
  · exact h.elim (fun h => absurd (show (256 : BitVec 16) = chainEnd from h) (by decide))
      (fun h => absurd (show (256 : BitVec 16).toNat ≤ 255 from h) (by decide))
  · exact absurd h (by cases t <;> simp [tableCode])

end Sys2Proof.Tests
end

section
/-! The guard invariant (O57): what of the state it reads, and that every step keeps it. -/

namespace Sys2Proof.Proofs.Guards

open Sys2Proof Sys2Proof.Machine Sys2Proof.Claims Sys2Proof.Laws

/-! ### What the invariant reads of a state

Scores, queues, tables, timers and counters do not matter to R92, R99 and R106: the used slots, the guard states, ALERT
and the filtered permit do. An operation that leaves this view keeps the invariant. -/

/-- The used slots of the active bank, the guard state of each slot, ALERT and the filtered permit. -/
structure GuardView where
  used : Fin 16 → Bool
  state : Fin 16 → Option GuardState
  alert : Bool
  permit : Bool

/-- The view of a state. -/
def guardView (s : State) : GuardView := ⟨slotUsed s.activeBank, guardOf s, s.alert, s.permit⟩

/-- A view with a guard state for exactly the used slots, and no window without the permit. -/
structure GuardView.Covered (v : GuardView) : Prop where
  isSome_eq : ∀ i, (v.state i).isSome = v.used i
  no_window : v.permit = false → ∀ i d, v.state i ≠ some (.window d)

/-- ALERT is asserted exactly while a slot is FROZEN (R106). -/
def GuardView.AlertRight (v : GuardView) : Prop := v.alert = true ↔ ∃ i, v.state i = some .frozen

/-- The whole invariant, on a view. -/
structure GuardView.Sound (v : GuardView) : Prop extends v.Covered where
  alert_iff : v.AlertRight

theorem guardOf_eq_some_iff {s : State} {i : Fin 16} {x : GuardState} :
    guardOf s i = some x ↔ ∃ g, s.guards[i] = some g ∧ g.state = x := by
  simp [guardOf]

/-- The invariant of the obligation is that of the view. -/
theorem guardsSound_iff (s : State) : GuardsSound s ↔ (guardView s).Sound := by
  have hsome : ∀ i : Fin 16, (guardOf s i).isSome = s.guards[i].isSome := fun i => by simp [guardOf]
  constructor
  · rintro ⟨hcover, halert, hwindow⟩
    refine ⟨⟨fun i => (hsome i).trans (hcover i), fun hp i d hd => ?_⟩, ?_⟩
    · obtain ⟨g, hg, hgd⟩ := guardOf_eq_some_iff.mp hd
      exact hwindow hp i g d hg hgd
    · exact halert.trans (exists_congr fun i => guardOf_eq_some_iff.symm)
  · rintro ⟨⟨hcover, hwindow⟩, halert⟩
    refine ⟨fun i => (hsome i).symm.trans (hcover i), ?_, fun hp i g d hg hgd => ?_⟩
    · exact halert.trans (exists_congr fun i => guardOf_eq_some_iff)
    · exact hwindow hp i d (guardOf_eq_some_iff.mpr ⟨g, hg, hgd⟩)

/-! ### Changes of a view -/

/-- A slot's guard state replaced. -/
def GuardView.setState (v : GuardView) (i : Fin 16) (g : Option GuardState) : GuardView :=
  { v with state := Function.update v.state i g }

@[simp] theorem setState_setState (v : GuardView) (i : Fin 16) (g h : Option GuardState) :
    (v.setState i g).setState i h = v.setState i h := by
  simp [GuardView.setState]

@[simp] theorem setState_self (v : GuardView) (i : Fin 16) : v.setState i (v.state i) = v := by
  simp [GuardView.setState]

@[simp] theorem setState_state_self (v : GuardView) (i : Fin 16) (g : Option GuardState) :
    (v.setState i g).state i = g := by
  simp [GuardView.setState]

theorem setState_state_of_ne (v : GuardView) {i j : Fin 16} (g : Option GuardState) (h : j ≠ i) :
    (v.setState i g).state j = v.state j := by
  simp [GuardView.setState, h]

/-- A guard state put in place of one, or none in place of none, and a window only under the permit. -/
theorem GuardView.Covered.setState {v : GuardView} (hv : v.Covered) {i : Fin 16} {g : Option GuardState}
    (hg : g.isSome = (v.state i).isSome) (hw : v.permit = false → ∀ d, g ≠ some (.window d)) :
    (v.setState i g).Covered := by
  constructor
  · intro j
    by_cases h : j = i
    · subst h
      rw [setState_state_self, hg]
      exact hv.isSome_eq j
    · rw [setState_state_of_ne v g h]
      exact hv.isSome_eq j
  · intro hp j d
    by_cases h : j = i
    · subst h
      rw [setState_state_self]
      exact hw hp d
    · rw [setState_state_of_ne v g h]
      exact hv.no_window hp j d

/-- A change between states that are not FROZEN leaves ALERT right. -/
theorem GuardView.AlertRight.setState {v : GuardView} (hv : v.AlertRight) {i : Fin 16} {g : Option GuardState}
    (ho : v.state i ≠ some .frozen) (hg : g ≠ some .frozen) : (v.setState i g).AlertRight := by
  refine Iff.trans hv (exists_congr fun j => ?_)
  by_cases h : j = i
  · subst h
    rw [setState_state_self]
    exact iff_of_false ho hg
  · rw [setState_state_of_ne v g h]

/-- What the end of a window leaves of a guard state: NORMAL for WINDOW, any other as it was. -/
def leaveWindow : Option GuardState → Option GuardState
  | some (.window _) => some .normal
  | some .normal => some .normal
  | some .frozen => some .frozen
  | none => none

@[simp] theorem leaveWindow_isSome (g : Option GuardState) : (leaveWindow g).isSome = g.isSome := by
  rcases g with _ | _ | _ | _ <;> rfl

@[simp] theorem leaveWindow_eq_frozen (g : Option GuardState) :
    leaveWindow g = some .frozen ↔ g = some .frozen := by
  rcases g with _ | _ | _ | _ <;> simp [leaveWindow]

@[simp] theorem leaveWindow_ne_window (g : Option GuardState) (d : Nat) : leaveWindow g ≠ some (.window d) := by
  rcases g with _ | _ | _ | _ <;> simp [leaveWindow]

/-- The windows of the slots of a list closed. -/
def GuardView.closeSlots (v : GuardView) (l : List (Fin 16)) : GuardView :=
  { v with state := fun i => if i ∈ l then leaveWindow (v.state i) else v.state i }

/-- Windows closed keep the invariant; with those of all slots closed the permit may go. -/
theorem GuardView.Sound.closeSlots {v : GuardView} (hv : v.Sound) {l : List (Fin 16)} {p : Bool}
    (hp : p = false → v.permit = false ∨ ∀ i, i ∈ l) : { v.closeSlots l with permit := p }.Sound := by
  refine ⟨⟨fun i => ?_, fun hf i d => ?_⟩, ?_⟩
  · refine Eq.trans ?_ (hv.isSome_eq i)
    simp only [GuardView.closeSlots]
    split <;> simp
  · simp only [GuardView.closeSlots]
    split
    · simp
    · next hi => exact hv.no_window ((hp hf).resolve_right fun hall => hi (hall i)) i d
  · refine Iff.trans hv.alert_iff (exists_congr fun i => ?_)
    simp only [GuardView.closeSlots]
    split <;> simp

/-! ### Operations that leave the view -/

@[simp] theorem guardView_record (s : State) (e : EventRecord) : guardView (s.record e) = guardView s := by
  obtain ⟨l, o, h⟩ := record_frame s e
  rw [h]; rfl

@[simp] theorem guardView_setPort (s : State) (p : Port) (ps : PortState) :
    guardView (s.setPort p ps) = guardView s := by
  cases p <;> rfl

@[simp] theorem guardView_setLink (s : State) (p : Port) (high : Bool) :
    guardView (s.setLink p high) = guardView s := by
  cases p <;> rfl

@[simp] theorem guardView_setLoad (s : State) (d : Fin 4) (r : Option Download) :
    guardView (s.setLoad d r) = guardView s := rfl

@[simp] theorem guardView_setInactiveBank (s : State) (b : Bank) :
    guardView (s.setInactiveBank b) = guardView s := by
  have hbank : (s.setInactiveBank b).activeBank = s.activeBank := by
    unfold State.setInactiveBank State.activeBank State.bank
    cases h : s.active <;> rfl
  simp [guardView, hbank, guardOf, funext_iff]

@[simp] theorem guardView_noticeAfter (u w : State) : guardView (noticeAfter u w) = guardView w := by
  obtain ⟨ps, k, h⟩ := noticeAfter_frame u w
  rw [h]; rfl

@[simp] theorem guardView_noticing (f : State → State) (s : State) :
    guardView (noticing f s) = guardView (f s) := guardView_noticeAfter s (f s)

/-! ### Ports and pins -/

@[simp] theorem guardView_forwardFrame (s : State) (p : Port) (frame : List Byte) :
    guardView (forwardFrame s p frame) = guardView s := guardView_setPort _ _ _

@[simp] theorem guardView_countReceived (s : State) (p : Port) : guardView (countReceived s p) = guardView s :=
  guardView_setPort _ _ _

@[simp] theorem guardView_countFormatDrop (s : State) (p : Port) : guardView (countFormatDrop s p) = guardView s :=
  guardView_setPort _ _ _

@[simp] theorem guardView_countQueueFull (s : State) (p : Port) : guardView (countQueueFull s p) = guardView s :=
  guardView_setPort _ _ _

@[simp] theorem guardView_countGuardDrop (s : State) (p : Port) : guardView (countGuardDrop s p) = guardView s :=
  guardView_setPort _ _ _

@[simp] theorem guardView_countLinkDrop (s : State) (p : Port) : guardView (countLinkDrop s p) = guardView s :=
  guardView_setPort _ _ _

/-! ### The Load Checker and the Transaction Tracker -/

@[simp] theorem guardView_abortLoad (s : State) (d : Fin 4) (reason : Reason) :
    guardView (abortLoad s d reason) = guardView s := by
  obtain ⟨v, l, o, h⟩ := abortLoad_frame s d reason
  rw [h]; rfl

@[simp] theorem guardView_abortForWindow (s : State) (i : Fin 16) :
    guardView (abortForWindow s i) = guardView s := by
  obtain ⟨v, l, o, h⟩ := abortForWindow_frame s i
  rw [h]; rfl

/-- A fold of an operation that leaves the view leaves it. -/
theorem guardView_foldl {α : Type} {f : State → α → State} (hf : ∀ s x, guardView (f s x) = guardView s) (l : List α)
    (s : State) : guardView (l.foldl f s) = guardView s := by
  induction l generalizing s with
  | nil => rfl
  | cons x rest ih => rw [List.foldl_cons, ih, hf]

@[simp] theorem guardView_abortAllLink (s : State) : guardView (abortAllLink s) = guardView s :=
  guardView_foldl (fun s d => guardView_abortLoad s d .link) allLoads s

@[simp] theorem guardView_abortForPolicy (s : State) (changed : List (Fin 16)) :
    guardView (abortForPolicy s changed) = guardView s := by
  refine guardView_foldl (fun s d => ?_) allLoads s
  split
  · split <;> simp
  · rfl

@[simp] theorem guardView_applyReport (s : State) (slot : Fin 16) (d : Fin 4) (kind : EntryKind) (positive : Bool) :
    guardView (applyReport s slot d kind positive) = guardView s := by
  obtain ⟨v, l, o, h⟩ := applyReport_frame s slot d kind positive
  rw [h]; rfl

@[simp] theorem guardView_applyLoadChange (s : State) (c : Command) (d : Fin 4) (change : LoadChange) :
    guardView (applyLoadChange s c d change) = guardView s := by
  cases change with
  | begin => simp [applyLoadChange]
  | fold _ | duplicate | activate _ =>
    simp only [applyLoadChange]
    split <;> simp

@[simp] theorem guardView_applyRefusal (s : State) (freed : Option (Fin 4)) :
    guardView (applyRefusal s freed) = guardView s := by
  cases freed <;> rfl

@[simp] theorem guardView_removeEntry (s : State) (slot : Fin 16) (tag : BitVec 32) :
    guardView (removeEntry s slot tag) = guardView s := rfl

@[simp] theorem guardView_makeEntry (s : State) (e : Outstanding) : guardView (makeEntry s e) = guardView s := rfl

@[simp] theorem guardView_writeShadow (s : State) (slot : Fin 16) (object : BitVec 32) (value : Int) (origin : Origin) :
    guardView (writeShadow s slot object value origin) = guardView s := rfl

@[simp] theorem guardView_negativeEffect (s : State) (e : Outstanding) :
    guardView (negativeEffect s e) = guardView s := by
  unfold negativeEffect
  split <;> simp

@[simp] theorem guardView_positiveEffect (s : State) (e : Outstanding) (value : ValueType → Option Int) :
    guardView (positiveEffect s e value) = guardView s := by
  unfold positiveEffect
  split
  · split <;> simp
  · split
    · split <;> simp
    · simp
  · split <;> simp

@[simp] theorem guardView_matchResponse (s : State) (slot : Fin 16) (p : Profile) (payload : List Byte) :
    guardView (matchResponse s slot p payload) = guardView s := by
  unfold matchResponse
  split
  · rfl
  · split
    · rfl
    · dsimp only
      split <;> simp

/-! ### The Window Unit -/

@[simp] theorem guardView_setGuard (s : State) (i : Fin 16) (g : Option SlotGuard) :
    guardView (s.setGuard i g) = (guardView s).setState i (g.map (·.state)) := by
  have hstate : guardOf (s.setGuard i g) = Function.update (guardOf s) i (g.map (·.state)) := by
    funext j
    by_cases h : j = i
    · subst h
      simp [guardOf]
    · have hv : i.val ≠ j.val := fun he => h (Fin.ext he.symm)
      simp [guardOf, h, hv]
  simp only [guardView, hstate, GuardView.setState]
  rfl

theorem guardView_state_of_guards {s : State} {i : Fin 16} {g : Option SlotGuard} (h : s.guards[i] = g) :
    (guardView s).state i = g.map (·.state) :=
  congrArg (Option.map SlotGuard.state) h

/-- A guard rewritten with its state kept leaves the view: the score is not in it. -/
theorem setState_of_guards {s : State} {i : Fin 16} {g : SlotGuard} (h : s.guards[i] = some g) :
    (guardView s).setState i (some g.state) = guardView s := by
  rw [← Option.map_some, ← guardView_state_of_guards h, setState_self]

@[simp] theorem guardView_withGuardState (s : State) (i : Fin 16) (g : GuardState) :
    guardView (withGuardState s i g) = (guardView s).setState i (((guardView s).state i).map fun _ => g) := by
  unfold withGuardState
  split
  · next sg h => simp [guardView_state_of_guards h]
  · next h =>
    have hnone : (guardView s).state i = none := guardView_state_of_guards h
    rw [hnone, Option.map_none, ← hnone, setState_self]

@[simp] theorem guardView_countViolation (s : State) (i : Fin 16) :
    guardView (countViolation s i) = guardView s := by
  unfold countViolation
  split
  · next g hg =>
    split
    · rfl
    · simp [setState_of_guards hg]
  · rfl

theorem inWindow_eq_true_iff {s : State} {i : Fin 16} :
    inWindow s i = true ↔ ∃ d, (guardView s).state i = some (.window d) := by
  rcases h : guardOf s i with _ | _ | _ | _ <;> simp [inWindow, guardView, h]

theorem isFrozen_eq_true_iff {s : State} {i : Fin 16} :
    isFrozen s i = true ↔ (guardView s).state i = some .frozen := by
  simp [isFrozen, guardView]

@[simp] theorem guardView_closeWindow (s : State) (i : Fin 16) (reason : Reason) (source : Option MacAddress) :
    guardView (closeWindow s i reason source) =
      (guardView s).setState i (leaveWindow ((guardView s).state i)) := by
  unfold closeWindow
  split
  · next h =>
    obtain ⟨d, hd⟩ := inWindow_eq_true_iff.mp h
    dsimp only
    split <;> simp [hd, leaveWindow]
  · next h =>
    have hleave : leaveWindow ((guardView s).state i) = (guardView s).state i := by
      rcases hg : (guardView s).state i with _ | _ | d | _
      case some.window => exact absurd (inWindow_eq_true_iff.mpr ⟨d, hg⟩) h
      all_goals rfl
    rw [hleave, setState_self]

theorem closeSlots_nil (v : GuardView) : v.closeSlots [] = v := by simp [GuardView.closeSlots]

theorem closeSlots_cons (v : GuardView) (i : Fin 16) (l : List (Fin 16)) :
    (v.setState i (leaveWindow (v.state i))).closeSlots l = v.closeSlots (i :: l) := by
  have hidem : ∀ g, leaveWindow (leaveWindow g) = leaveWindow g := by rintro (_ | _ | _ | _) <;> rfl
  unfold GuardView.closeSlots
  congr 1
  funext j
  by_cases h : j = i
  · subst h
    simp [hidem]
  · simp [setState_state_of_ne v _ h, h]

@[simp] theorem guardView_closeWindows (s : State) (l : List (Fin 16)) (reason : Reason) (source : Option MacAddress) :
    guardView (closeWindows s l reason source) = (guardView s).closeSlots l := by
  unfold closeWindows
  induction l generalizing s with
  | nil => exact (closeSlots_nil _).symm
  | cons i rest ih => rw [List.foldl_cons, ih, guardView_closeWindow, closeSlots_cons]

theorem closeWindows_sound {s : State} (hs : (guardView s).Sound) (l : List (Fin 16)) (reason : Reason)
    (source : Option MacAddress) : (guardView (closeWindows s l reason source)).Sound := by
  rw [guardView_closeWindows]
  exact hs.closeSlots (p := (guardView s).permit) .inl

theorem windowExpire_sound {s : State} (hs : (guardView s).Sound) (i : Fin 16) :
    (guardView (windowExpire s i)).Sound := by
  unfold windowExpire
  split
  · split
    · exact closeWindows_sound hs [i] .expired none
    · exact hs
  all_goals exact hs

/-- The filtered permit taken: windows stay open only under it (R99). -/
theorem permitExpire_sound {s : State} (hs : (guardView s).Sound) : (guardView (permitExpire s)).Sound := by
  unfold permitExpire
  split
  · split
    · dsimp only
      split
      · next hpin =>
        have h := hs.closeSlots (l := []) (p := s.chgPermit) (fun hp => absurd (hpin.symm.trans hp) (by decide))
        rw [closeSlots_nil] at h
        exact h
      · rw [guardView_closeWindows]
        exact hs.closeSlots (p := s.chgPermit) fun _ => .inr List.mem_finRange
    · exact hs
  · exact hs

/-! ### Freezing (R103, R106) -/

theorem guardView_freezeSlot (s : State) (i : Fin 16) (average : Nat) :
    guardView (freezeSlot s i average) =
      { (guardView s).setState i (((guardView s).state i).map fun _ => .frozen) with alert := true } := by
  unfold freezeSlot
  have hmap : (leaveWindow ((guardView s).state i)).map (fun _ => GuardState.frozen) =
      ((guardView s).state i).map fun _ => .frozen := by
    rcases (guardView s).state i with _ | _ | _ | _ <;> rfl
  change { guardView (State.record _ _) with alert := true } = _
  simp [hmap]

theorem freezeSlot_sound {s : State} (hs : (guardView s).Sound) {i : Fin 16} {x : GuardState}
    (hx : (guardView s).state i = some x) (average : Nat) : (guardView (freezeSlot s i average)).Sound := by
  have hcovered : ((guardView s).setState i (some .frozen)).Covered :=
    hs.toCovered.setState (by rw [hx]; rfl) (by simp)
  rw [guardView_freezeSlot, hx, Option.map_some]
  exact ⟨⟨hcovered.isSome_eq, hcovered.no_window⟩, iff_of_true rfl ⟨i, setState_state_self _ _ _⟩⟩

theorem scoreSlot_sound {s : State} (hs : (guardView s).Sound) (i : Fin 16) :
    (guardView (scoreSlot s i)).Sound := by
  unfold scoreSlot
  split
  · next g hg =>
    split
    · exact hs
    · dsimp only
      split
      · refine freezeSlot_sound (x := g.state) ?_ ?_ _
        · simpa [setState_of_guards hg] using hs
        · simp
      · simpa [setState_of_guards hg] using hs
  · exact hs

/-- A fold of an operation that keeps the invariant keeps it. -/
theorem foldl_sound {α : Type} {f : State → α → State}
    (hf : ∀ s x, (guardView s).Sound → (guardView (f s x)).Sound) (l : List α) {s : State}
    (hs : (guardView s).Sound) : (guardView (l.foldl f s)).Sound :=
  List.foldlRecOn l f hs fun s hs x _ => hf s x hs

theorem intervalExpire_sound {s : State} (hs : (guardView s).Sound) : (guardView (intervalExpire s)).Sound := by
  unfold intervalExpire
  split
  · split
    · exact foldl_sound (fun s i hs => scoreSlot_sound hs i) (usedSlots s.activeBank) hs
    · exact hs
  · exact hs

/-! ### Time -/

theorem guardView_responseExpire (s : State) (slot : Fin 16) (tag : BitVec 32) :
    guardView (responseExpire s slot tag) = guardView s := by
  obtain ⟨t, v, l, o, h⟩ := responseExpire_frame s slot tag
  rw [h]; rfl

theorem guardView_idleExpire (s : State) (d : Fin 4) : guardView (idleExpire s d) = guardView s := by
  obtain ⟨v, l, o, h⟩ := idleExpire_frame s d
  rw [h]; rfl

theorem guardView_lockoutExpire (s : State) : guardView (lockoutExpire s) = guardView s := by
  obtain ⟨e, h⟩ := lockoutExpire_frame s
  rw [h]; rfl

theorem guardView_saveExpire (s : State) : guardView (saveExpire s) = guardView s := by
  obtain ⟨r, q, m, f, l, o, h⟩ := saveExpire_frame s
  rw [h]; rfl

theorem expire_sound (t : Timer) {s : State} (hs : (guardView s).Sound) : (guardView (expire t s)).Sound := by
  unfold expire
  rw [guardView_noticing]
  cases t with
  | permit => exact permitExpire_sound hs
  | window i => exact windowExpire_sound hs i
  | interval => exact intervalExpire_sound hs
  | response slot tag => exact (guardView_responseExpire s slot tag).symm ▸ hs
  | idle d => exact (guardView_idleExpire s d).symm ▸ hs
  | lockout => exact (guardView_lockoutExpire s).symm ▸ hs
  | save => exact (guardView_saveExpire s).symm ▸ hs

theorem elapse_sound {s : State} (hs : (guardView s).Sound) (n : Nat) : (guardView (s.elapse n)).Sound :=
  elapse_induction (P := fun s => (guardView s).Sound) (fun _ _ h => h) (fun t _ h => expire_sound t h) s n hs

theorem changePermit_sound {s : State} (hs : (guardView s).Sound) (high : Bool) :
    (guardView (changePermit s high)).Sound := by
  rcases changePermit_frame s high with h | ⟨p, h⟩
  · rw [h]
    exact hs
  · rw [h]
    exact expire_sound .permit hs

/-! ### The reset and the start -/

theorem resetPart_sound (s : State) (high : Bool) : (guardView (resetPart s high)).Sound := by
  have hstate : ∀ i, guardOf State.reset i = none := fun i => by simp [guardOf, State.reset]
  have hused : ∀ i, slotUsed State.reset.activeBank i = false := by decide
  change (guardView State.reset).Sound
  refine ⟨⟨fun i => ?_, fun _ i d h => ?_⟩, iff_of_false (by decide) ?_⟩
  · exact (congrArg Option.isSome (hstate i)).trans (hused i).symm
  · exact absurd ((hstate i).symm.trans h) (by simp)
  · rintro ⟨i, h⟩
    exact absurd ((hstate i).symm.trans h) (by simp)

theorem reportReply_sound {s : State} (hs : (guardView s).Sound) (r : Reply) :
    (guardView (reportReply s r)).Sound := by
  rcases reportReply_cases s r with ⟨-, h⟩ | ⟨-, h⟩ <;> rw [h]
  · exact hs
  · exact resetPart_sound s true

theorem reportReplies_sound {s : State} (hs : (guardView s).Sound) (l : List Reply) :
    (guardView (reportReplies s l)).Sound :=
  foldl_sound (fun _ r hs => reportReply_sound hs r) l hs

theorem offerReply_sound {s : State} (hs : (guardView s).Sound) (p : Port) (r : Reply) :
    (guardView (offerReply s p r)).Sound := by
  rcases offerReply_cases s p r with ⟨-, h⟩ | ⟨-, h⟩ <;> rw [h]
  · rw [guardView_setPort]
    exact hs
  · exact reportReply_sound hs r

theorem guardView_abandonSave (s : State) : guardView (abandonSave s) = guardView s := by
  unfold abandonSave
  split <;> rfl

theorem assertReset_sound {s : State} (hs : (guardView s).Sound) : (guardView (assertReset s)).Sound := by
  unfold assertReset
  split
  · exact resetPart_sound _ _
  · exact hs

theorem releaseReset_sound {s : State} (hs : (guardView s).Sound) : (guardView (releaseReset s)).Sound := by
  unfold releaseReset
  split
  · exact hs
  · exact resetPart_sound _ _

/-- The guards that a start makes: a fresh one for each used slot (R92, R168). -/
theorem startGuards_getElem (b : Bank) (j : Fin 16) :
    (startGuards b)[j] = if slotUsed b j then some freshGuard else none := by
  have hfold : ∀ (l : List (Fin 16)) (v : Vector (Option SlotGuard) 16),
      (l.foldl (fun g i => if slotUsed b i then g.set i (some freshGuard) else g) v)[j] =
        if j ∈ l ∧ slotUsed b j then some freshGuard else v[j] := by
    intro l
    induction l with
    | nil => simp
    | cons i rest ih =>
      intro v
      rw [List.foldl_cons, ih]
      by_cases hj : j = i
      · subst hj
        by_cases hu : slotUsed b j <;> simp [hu]
      · have hv : i.val ≠ j.val := fun he => hj (Fin.ext he.symm)
        by_cases hu : slotUsed b i <;> simp [hu, hj, hv]
  have hall : j ∈ allSlots := List.mem_finRange j
  unfold startGuards
  rw [hfold]
  simp [hall]

theorem installStart_sound (s : State) (station : MacAddress) (outcome : StartOutcome) (t : Settings) (b : Bank) :
    (guardView (installStart s station outcome t b)).Sound := by
  have hstate : ∀ i, (guardView (installStart s station outcome t b)).state i =
      if slotUsed b i then some .normal else none := by
    intro i
    rw [guardView_state_of_guards (startGuards_getElem b i)]
    split <;> rfl
  refine ⟨⟨fun i => ?_, fun _ i d => ?_⟩, iff_of_false (by simp [guardView, installStart]) ?_⟩
  · change _ = slotUsed b i
    rw [hstate]
    cases slotUsed b i <;> rfl
  · rw [hstate]
    split <;> simp
  · rintro ⟨i, h⟩
    rw [hstate] at h
    split at h <;> simp at h

@[simp] theorem guardView_portUpAtStart (p : Port) (high : Bool) (s : State) :
    guardView (portUpAtStart p high s) = guardView s := by
  unfold portUpAtStart
  split <;> simp

theorem guardView_finishStart (s : State) (outcome : StartOutcome) :
    guardView (finishStart s outcome) = guardView s := by
  simp [finishStart]

theorem endStarting_sound (s : State) (answers : Bool) : (guardView (endStarting s answers)).Sound := by
  unfold endStarting
  rw [guardView_finishStart]
  exact installStart_sound _ _ _ _ _

/-! ### Frames that are no requests: only the score of a slot can change -/

@[simp] theorem guardView_countDecision (s : State) (slot : Fin 16) (d : Decision) :
    guardView (countDecision s slot d) = guardView s := rfl

@[simp] theorem guardView_applyEnding (s : State) (slot : Fin 16) (source : MacAddress) (object : Option (BitVec 32))
    (e : Ending) : guardView (applyEnding s slot source object e) = guardView s := by
  unfold applyEnding
  cases isViolation e <;> cases isMalformed e <;> simp

@[simp] theorem guardView_noteEnding (s : State) (slot : Fin 16) (source : MacAddress) (object : Option (BitVec 32))
    (e : Option Ending) : guardView (noteEnding s slot source object e) = guardView s := by
  cases e <;> simp [noteEnding]

@[simp] theorem guardView_trackStep (s : State) (c : Command) (a : Action) (d : Option (Fin 4)) :
    guardView (trackStep s c a d).1 = guardView s := by
  unfold trackStep
  split
  · rfl
  · split <;> simp

@[simp] theorem guardView_applyPass (s : State) (c : Command) (pass : Option (Fin 4 × LoadChange)) :
    guardView (applyPass s c pass) = guardView s := by
  cases pass <;> simp [applyPass]

@[simp] theorem guardView_placeDecided (s : State) (c : Command) (frame : List Byte) (rule : Option (Fin 256))
    (a : Action) : guardView (placeDecided s c frame rule a) = guardView s := by
  unfold placeDecided
  split <;> simp

@[simp] theorem guardView_enforceTrack (s : State) (c : Command) (frame : List Byte) (rule : Option (Fin 256))
    (a : Action) (pass : Option (Fin 4 × LoadChange)) :
    guardView (enforceTrack s c frame rule a pass) = guardView s := by
  unfold enforceTrack
  dsimp only
  split <;> simp

@[simp] theorem guardView_enforceCommand (s : State) (c : Command) (l : Layers) (frame : List Byte) :
    guardView (enforceCommand s c l frame) = guardView s := by
  unfold enforceCommand
  split
  · simp
  · dsimp only
    split
    · simp
    · split <;> simp

@[simp] theorem guardView_passiveLoad (s : State) (c : Command) (rule : Option (Fin 256)) :
    guardView (passiveLoad s c rule).1 = guardView s := by
  unfold passiveLoad
  split <;> simp

@[simp] theorem guardView_noteClamp (s : State) (c : Command) (rule : Option (Fin 256)) (a : Action) :
    guardView (noteClamp s c rule a) = guardView s := by
  unfold noteClamp
  split <;> simp

@[simp] theorem guardView_passiveRest (s : State) (c : Command) (frame : List Byte) (rule : Option (Fin 256))
    (a : Action) (frozen : Option Ending) : guardView (passiveRest s c frame rule a frozen) = guardView s := by
  simp [passiveRest]

@[simp] theorem guardView_passiveCommand (s : State) (c : Command) (l : Layers) (frame : List Byte) :
    guardView (passiveCommand s c l frame) = guardView s := by
  unfold passiveCommand
  dsimp only
  split <;> simp

@[simp] theorem guardView_applyByMode (s : State) (slot : Fin 16) (source : MacAddress) (object : Option (BitVec 32))
    (e : Ending) (frame : List Byte) : guardView (applyByMode s slot source object e frame) = guardView s := by
  unfold applyByMode
  split <;> simp

theorem guardView_decideCommand (s : State) (slot : Fin 16) (i : Fin 8) (p : Profile) (l : Layers)
    (frame : List Byte) : guardView (decideCommand s slot i p l frame) = guardView s := by
  unfold decideCommand
  split
  · simp
  · split <;> simp

theorem guardView_decideUnguarded (s : State) (slot : Fin 16) (source : MacAddress) (frame : List Byte) :
    guardView (decideUnguarded s slot source frame) = guardView s := by
  unfold decideUnguarded
  split <;> simp

theorem guardView_decideBroadcast (s : State) (source : MacAddress) (frame : List Byte) :
    guardView (decideBroadcast s source frame) = guardView s := by
  unfold decideBroadcast
  split <;> simp

theorem guardView_handleDownstream (s : State) (l : Layers) (frame : List Byte) :
    guardView (handleDownstream s l frame) = guardView s := by
  unfold handleDownstream
  split
  · exact guardView_decideCommand _ _ _ _ _ _
  · exact guardView_decideUnguarded _ _ _ _
  · exact guardView_decideBroadcast _ _ _
  · simp
  · simp

theorem guardView_handleResponse (l : Layers) (s : State) : guardView (handleResponse l s) = guardView s := by
  unfold handleResponse
  split <;> simp

@[simp] theorem guardView_placeUpstream (s : State) (frame : List Byte) :
    guardView (placeUpstream s frame) = guardView s := by
  unfold placeUpstream
  split <;> simp

theorem guardView_handleTraffic (s : State) (p : Port) (l : Layers) (frame : List Byte) :
    guardView (handleTraffic s p l frame) = guardView s := by
  unfold handleTraffic
  split
  · simp
  · cases p with
    | net =>
      dsimp only
      split
      · simp
      · rw [guardView_noticing, guardView_handleDownstream]
    | cell => rw [guardView_placeUpstream, guardView_noticing, guardView_handleResponse]

/-! ### Links and transmissions: a report on a reply frame can take the reset -/

theorem guardView_portUp (p : Port) (s : State) : guardView (portUp p s) = guardView s := by
  simp [portUp]

theorem guardView_portDown (p : Port) (s : State) : guardView (portDown p s) = guardView s := by
  unfold portDown
  rw [guardView_abortAllLink]
  cases p with
  | net => simp
  | cell => exact (guardView_record _ _).trans (guardView_setPort _ _ _)

theorem changeLink_sound {s : State} (hs : (guardView s).Sound) (p : Port) (high : Bool) :
    (guardView (changeLink s p high)).Sound := by
  have hset : (guardView (s.setLink p high)).Sound := (guardView_setLink s p high).symm ▸ hs
  unfold changeLink
  split
  · exact hs
  · dsimp only
    split
    · unfold linkFollows
      split
      · rw [guardView_noticing, guardView_portUp]
        exact hset
      · refine reportReplies_sound ?_ _
        rw [guardView_noticing, guardView_portDown]
        exact hset
    · exact hset

theorem completeTransmission_sound {s : State} (hs : (guardView s).Sound) (p : Port) :
    (guardView (completeTransmission s p)).Sound := by
  unfold completeTransmission
  dsimp only
  split
  · exact hs
  · rw [guardView_setPort]
    exact hs
  · refine reportReply_sound ?_ _
    rw [guardView_setPort]
    exact hs

theorem guardView_endSave (s : State) (misread : List (Nat × Byte)) : guardView (endSave s misread) = guardView s := by
  unfold endSave
  split
  · rfl
  · dsimp only
    split <;> exact guardView_record _ _

/-! ### Requests -/

/-- A request whose execution keeps the invariant. -/
def KeepsGuards (run : Request → State → Answer) : Prop :=
  ∀ (r : Request) (s : State), (guardView s).Sound → (guardView (run r s).state).Sound

theorem withLength_sound {r : Request} {len : Nat} {s : State} {k : List Byte → Answer} (hs : (guardView s).Sound)
    (hk : ∀ l, (guardView (k l).state).Sound) : (guardView (withLength r len s k).state).Sound := by
  rcases withLength_cases r len s k with ⟨-, h⟩ | ⟨-, h⟩ <;> rw [h]
  · exact hk _
  · exact hs

theorem withToken_sound {r : Request} {s : State} {k : State → Answer} (hs : (guardView s).Sound)
    (hk : ∀ u, (guardView u).Sound → (guardView (k u).state).Sound) : (guardView (withToken r s k).state).Sound := by
  rcases withToken_cases r s k with ⟨-, -, h⟩ | ⟨status, -, h⟩ <;> rw [h]
  · exact hk _ hs
  · obtain ⟨n, e, l, o, ht⟩ := tokenTest_frame r s
    simp only [refuse, ht]
    exact hs

theorem doIdentify_keeps : KeepsGuards doIdentify := fun _ _ hs => withLength_sound hs fun _ => hs

theorem doReadStatus_keeps : KeepsGuards doReadStatus := fun _ _ hs => withLength_sound hs fun _ => hs

theorem doReadCounters_keeps : KeepsGuards doReadCounters := fun _ _ hs => withLength_sound hs fun l => by
  split
  · exact hs
  · split <;> exact hs

theorem doTableRead_keeps : KeepsGuards doTableRead := fun _ _ hs => withLength_sound hs fun l => by
  dsimp only
  split
  · split
    · exact hs
    · split <;> exact hs
  · exact hs

/-- A table written is one of the inactive bank (R131). -/
theorem doTableWrite_keeps : KeepsGuards doTableWrite := by
  intro r s hs
  have hset : ∀ b, (guardView (s.setInactiveBank b)).Sound := fun b => (guardView_setInactiveBank s b).symm ▸ hs
  unfold doTableWrite
  dsimp only
  split
  · exact hs
  · split
    · exact hs
    · split
      · exact hs
      · split
        · exact hs
        · split
          · exact hs
          · split
            · exact hs
            · exact hset _

theorem doBankCopy_keeps : KeepsGuards doBankCopy := fun _ s hs => withLength_sound hs fun _ => by
  have hset : ∀ b, (guardView (s.setInactiveBank b)).Sound := fun b => (guardView_setInactiveBank s b).symm ▸ hs
  split
  · exact hs
  · exact hset _

theorem doLockPolicy_keeps : KeepsGuards doLockPolicy := fun _ _ hs =>
  withToken_sound hs fun _ hu => withLength_sound hu fun _ => by
    split
    · exact hu
    · exact (guardView_record _ _).symm ▸ hu

theorem guardView_enterMode (s : State) (m : Mode) (source : MacAddress) :
    guardView (enterMode s m source) = guardView s := by
  obtain ⟨l, o, h⟩ := enterMode_frame s m source
  rw [h]; rfl

theorem doSetMode_keeps : KeepsGuards doSetMode := fun _ _ hs => withLength_sound hs fun l => by
  split
  · exact hs
  · split
    · exact withToken_sound hs fun _ hu => (guardView_enterMode _ _ _).symm ▸ hu
    · exact (guardView_enterMode _ _ _).symm ▸ hs

theorem doFetchEvents_keeps : KeepsGuards doFetchEvents := fun _ _ hs => withLength_sound hs fun l => by
  dsimp only
  split <;> exact hs

theorem doReadShadow_keeps : KeepsGuards doReadShadow := fun _ _ hs => withLength_sound hs fun l => by
  dsimp only
  split <;> exact hs

theorem doForgetShadow_keeps : KeepsGuards doForgetShadow := fun _ _ hs =>
  withToken_sound hs fun _ hu => withLength_sound hu fun l => by
    dsimp only
    split
    · exact hu
    · split
      · exact hu
      · split <;> exact hu

theorem doReadLoads_keeps : KeepsGuards doReadLoads := fun _ _ hs => withLength_sound hs fun _ => hs

theorem doSetNoticeDestination_keeps : KeepsGuards doSetNoticeDestination := fun _ _ hs =>
  withLength_sound hs fun l => by
    dsimp only
    split
    · exact hs
    · split <;> exact hs

theorem doSetSettings_keeps : KeepsGuards doSetSettings := fun _ _ hs =>
  withToken_sound hs fun _ hu => withLength_sound hu fun l => by
    split <;> exact hu

theorem doSave_keeps : KeepsGuards doSave := fun _ _ hs =>
  withToken_sound hs fun _ hu => withLength_sound hu fun _ => by
    split <;> exact hu

theorem doRestart_keeps : KeepsGuards doRestart := fun _ _ hs =>
  withToken_sound hs fun _ hu => withLength_sound hu fun _ => by
    split <;> exact hu

/-! ### OPEN WINDOW and CLOSE WINDOW (R94 to R97) -/

/-- A window opened puts WINDOW in place of a slot's guard state, and nothing in place of none (R95). -/
theorem guardView_openSlot (seconds : Nat) (source : MacAddress) (s : State) (i : Fin 16) :
    ∃ g, g.isSome = ((guardView s).state i).isSome ∧ g ≠ some .frozen ∧
      guardView (openSlot seconds source s i) = (guardView s).setState i g :=
  ⟨((guardView s).state i).map fun _ => .window (s.clock + seconds * 1000), by simp, by simp, by simp [openSlot]⟩

/-- Windows opened under the permit, none of them of a FROZEN slot. -/
theorem openSlots_sound {s : State} (hs : (guardView s).Sound) (hp : (guardView s).permit = true)
    {l : List (Fin 16)} (hl : ∀ i ∈ l, (guardView s).state i ≠ some .frozen) (seconds : Nat) (source : MacAddress) :
    (guardView (l.foldl (openSlot seconds source) s)).Sound := by
  induction l generalizing s with
  | nil => exact hs
  | cons i rest ih =>
    obtain ⟨g, hsome, hne, hopen⟩ := guardView_openSlot seconds source s i
    have halert := hs.alert_iff.setState (hl i List.mem_cons_self) hne
    have hcovered := hs.toCovered.setState hsome fun hf => absurd (hp.symm.trans hf) (by decide)
    rw [List.foldl_cons]
    apply ih <;> rw [hopen]
    · exact ⟨hcovered, halert⟩
    · exact hp
    · intro j hj
      by_cases h : j = i
      · rw [h, setState_state_self]
        exact hne
      · rw [setState_state_of_ne _ g h]
        exact hl j (List.mem_cons_of_mem i hj)

theorem doOpenWindow_keeps : KeepsGuards doOpenWindow := fun r s hs =>
  withToken_sound hs fun u hu => withLength_sound hu fun l => by
    dsimp only
    split
    · exact hu
    · split
      · exact hu
      · next hpermit =>
        split
        · exact hu
        · next hfrozen =>
          refine openSlots_sound hu (by simpa [guardView] using hpermit) (fun i hi hf => hfrozen ?_) _ _
          exact List.any_eq_true.mpr ⟨i, hi, isFrozen_eq_true_iff.mpr hf⟩

theorem doCloseWindow_keeps : KeepsGuards doCloseWindow := fun _ _ hs => withLength_sound hs fun l => by
  dsimp only
  split
  · exact hs
  · exact closeWindows_sound hs _ _ _

/-! ### THAW (R105, R106) -/

/-- ALERT set by the guard states is right (R106). -/
theorem setAlert_sound {s : State} (hs : (guardView s).Covered) : (guardView (setAlert s)).Sound := by
  refine ⟨⟨hs.isSome_eq, hs.no_window⟩, ?_⟩
  change anyFrozen s = true ↔ ∃ i, (guardView s).state i = some .frozen
  simp only [anyFrozen, List.any_eq_true, isFrozen_eq_true_iff]
  exact exists_congr fun i => and_iff_right (List.mem_finRange i)

theorem guardView_thawSlot (s : State) (i : Fin 16) (source : Option MacAddress) :
    guardView (thawSlot s i source) =
      (guardView s).setState i
        (if (guardView s).state i = some .frozen then some .normal else (guardView s).state i) := by
  unfold thawSlot
  simp only [isFrozen_eq_true_iff]
  split
  · simp [freshGuard]
  · exact (setState_self _ _).symm

theorem thawSlot_covered {s : State} (hs : (guardView s).Covered) (i : Fin 16) (source : Option MacAddress) :
    (guardView (thawSlot s i source)).Covered := by
  rw [guardView_thawSlot]
  split
  · next h => exact hs.setState (by rw [h]; rfl) (by simp)
  · exact (setState_self _ _).symm ▸ hs

theorem doThaw_keeps : KeepsGuards doThaw := fun r s hs =>
  withToken_sound hs fun u hu => withLength_sound hu fun l => by
    dsimp only
    split
    · exact hu
    · refine setAlert_sound (List.foldlRecOn (motive := fun s => (guardView s).Covered) _ _ hu.toCovered ?_)
      exact fun s hs i _ => thawSlot_covered hs i _

/-! ### COMMIT (R107, R140 to R142) -/

theorem guardView_commitSlot (usedNew : Bool) (s : State) (i : Fin 16) :
    guardView (commitSlot usedNew s i) = (guardView s).setState i (if usedNew then some .normal else none) := by
  unfold commitSlot
  rw [guardView_setGuard, guardView_thawSlot, guardView_closeWindow]
  cases usedNew <;> simp [freshGuard]

/-- What the changed slots hold after a commit: NORMAL when the new bank uses the slot, else nothing (R107). -/
def GuardView.renewSlots (v : GuardView) (used : Fin 16 → Bool) (l : List (Fin 16)) : GuardView :=
  { v with state := fun j => if j ∈ l then if used j then some .normal else none else v.state j }

theorem guardView_commitSlots (used : Fin 16 → Bool) (l : List (Fin 16)) (s : State) :
    guardView (l.foldl (fun s i => commitSlot (used i) s i) s) = (guardView s).renewSlots used l := by
  induction l generalizing s with
  | nil => simp [GuardView.renewSlots]
  | cons i rest ih =>
    rw [List.foldl_cons, ih, guardView_commitSlot]
    unfold GuardView.renewSlots
    congr 1
    funext j
    by_cases h : j = i
    · subst h
      simp
    · simp [setState_state_of_ne _ _ h, h]

/-- The slots renewed cover the bank now in use, when the others are used by both banks or by neither. -/
theorem GuardView.Covered.renewSlots {v : GuardView} (hv : v.Covered) {used : Fin 16 → Bool} {l : List (Fin 16)}
    (h : ∀ i, i ∉ l → v.used i = used i) : ({ v with used := used }.renewSlots used l).Covered := by
  unfold GuardView.renewSlots
  constructor
  · intro i
    dsimp only
    split
    · cases used i <;> rfl
    · next hi => exact (hv.isSome_eq i).trans (h i hi)
  · intro hp i d
    dsimp only
    split
    · split <;> simp
    · exact hv.no_window hp i d

/-- A slot that a swap does not change is used in both banks or in neither (R141). -/
theorem slotUsed_of_unchanged {old new : Bank} {i : Fin 16} (h : i ∉ changedSlots old new) :
    slotUsed old i = slotUsed new i := by
  have hsame : slotChanged old new i = false := by
    simpa [changedSlots, allSlots] using h
  have hboth := (Bool.or_eq_false_iff.mp hsame).1
  simpa using hboth

@[simp] theorem guardView_clearDecisions (s : State) (changed : List (Fin 16)) :
    guardView (clearDecisions s changed) = guardView s := rfl

@[simp] theorem guardView_trackerPolicy (s : State) (changed : List (Fin 16)) :
    guardView (trackerPolicy s changed) = guardView s := rfl

/-- The marker moved to the other bank, before any slot is renewed. -/
theorem guardView_swap (s : State) :
    guardView { s with active := otherBank s.active } =
      { guardView s with used := slotUsed s.inactiveBank } := rfl

theorem swapBanks_sound {s : State} (hs : (guardView s).Sound) (source : MacAddress) :
    (guardView (swapBanks s source)).Sound := by
  unfold swapBanks
  simp only [guardView_record, guardView_clearDecisions, guardView_trackerPolicy, guardView_abortForPolicy]
  refine setAlert_sound ?_
  rw [guardView_commitSlots (slotUsed _), guardView_swap]
  exact hs.toCovered.renewSlots fun i hi => slotUsed_of_unchanged hi

theorem reply_state (s : State) (payload : List Byte) : (reply s payload).state = s := rfl

theorem doCommit_keeps : KeepsGuards doCommit := fun r s hs => withLength_sound hs fun _ => by
  split
  · exact hs
  · split
    · exact hs
    · rw [reply_state]
      exact swapBanks_sound hs r.source

/-! ### Every request, every command, every step -/

theorem requestOfCode_keeps {code : Byte} {run : Request → State → Answer} (h : requestOfCode code = some run) :
    KeepsGuards run := by
  unfold requestOfCode at h
  split at h <;> cases h
  · exact doIdentify_keeps
  · exact doReadStatus_keeps
  · exact doReadCounters_keeps
  · exact doTableRead_keeps
  · exact doTableWrite_keeps
  · exact doBankCopy_keeps
  · exact doCommit_keeps
  · exact doLockPolicy_keeps
  · exact doSetMode_keeps
  · exact doOpenWindow_keeps
  · exact doCloseWindow_keeps
  · exact doThaw_keeps
  · exact doFetchEvents_keeps
  · exact doReadShadow_keeps
  · exact doForgetShadow_keeps
  · exact doReadLoads_keeps
  · exact doSetNoticeDestination_keeps
  · exact doSetSettings_keeps
  · exact doSave_keeps
  · exact doRestart_keeps

theorem serveRequest_sound {code : Byte} {run : Option (Request → State → Answer)}
    (hrun : ∀ f, run = some f → KeepsGuards f) (r : Request) {s : State} (hs : (guardView s).Sound) :
    (guardView (serveRequest code run r s)).Sound := by
  have hanswer : (guardView (answerRequest run r s).state).Sound := by
    rcases answerRequest_cases run r s with ⟨f, hf, -, -, h⟩ | ⟨status, h⟩ <;> rw [h]
    · exact hrun f hf r s hs
    · exact hs
  rcases serveRequest_cases code run r s with ⟨-, h⟩ | ⟨-, -, h⟩ | ⟨-, -, h⟩ <;> rw [h]
  · exact hs
  · exact hs
  · unfold executeRequest
    dsimp only
    rw [guardView_noticeAfter]
    exact offerReply_sound hanswer _ _

theorem arriveRequest_sound {code : Byte} {run : Request → State → Answer} (h : requestOfCode code = some run)
    (r : Request) {s : State} (hs : (guardView s).Sound) : (guardView (arriveRequest code run r s)).Sound := by
  unfold arriveRequest
  split
  · exact hs
  · split
    · rw [guardView_countFormatDrop, guardView_countReceived]
      exact hs
    · refine serveRequest_sound (fun f hf => ?_) r ((guardView_countReceived s r.port).symm ▸ hs)
      exact Option.some.inj hf ▸ requestOfCode_keeps h

theorem arriveFrame_sound {s : State} (hs : (guardView s).Sound) (p : Port) (frame : List Byte) :
    (guardView (arriveFrame s p frame)).Sound := by
  have hcount : (guardView (countReceived s p)).Sound := (guardView_countReceived s p).symm ▸ hs
  unfold arriveFrame
  split
  · exact hs
  · dsimp only
    split
    · rw [guardView_countFormatDrop]
      exact hcount
    · split
      · unfold handleManagement
        split
        · exact serveRequest_sound (fun f hf => requestOfCode_keeps hf) _ hcount
        · exact hcount
      · rw [guardView_handleTraffic]
        exact hcount

theorem exec_sound {c : Instr} {s t : State} (hs : (guardView s).Sound) (h : exec c s = .next t) :
    (guardView t).Sound := by
  have he : ∀ dt, (guardView (s.elapse dt)).Sound := elapse_sound hs
  cases c <;> obtain rfl := Host.Outcome.next.inj h
  case resetNAssert => exact assertReset_sound (he _)
  case resetNRelease => exact releaseReset_sound (he _)
  case startingEnd =>
    split
    · exact endStarting_sound _ _
    · exact he _
  case linkChanged => exact changeLink_sound (he _) _ _
  case frameArrival => exact arriveFrame_sound (he _) _ _
  case transmissionComplete => exact completeTransmission_sound (he _) _
  case chgPermitPinChange => exact changePermit_sound (he _) _
  case saveEnd dt misread =>
    rw [guardView_noticing, guardView_endSave]
    exact he dt
  case responseTimeout | windowExpiry | permitFilterExpiry | intervalExpiry | idleExpiry | lockoutEnd | saveTimeout =>
    exact expire_sound _ (he _)
  all_goals exact arriveRequest_sound rfl _ (he _)

/-- Settles O57: every command, and the passing of time, keeps the view of the state sound. -/
theorem guardsStaySound : Obligations.GuardsStaySound := by
  intro s t hs h
  rw [guardsSound_iff] at hs ⊢
  unfold step at h
  split at h
  · cases h
    exact elapse_sound hs 1
  · next c rest _ => exact exec_sound (s := { s with pending := rest }) hs h

end Sys2Proof.Proofs.Guards
end

section
/-! Requests on the management link: the answer of one that reaches its tests (R146 to R149), and with it READ_COUNTERS
(O40), FETCH_EVENTS and FORGET_SHADOW (O47). -/

namespace Sys2Proof.Proofs.ManagementLink

open Sys2Proof Sys2Proof.Machine Sys2Proof.Claims Sys2Proof.Laws

/-! ### The fields of a payload cut to its length -/

theorem byteAt_take {l : List Byte} {i n : Nat} (h : i < n) : byteAt (l.take n) i = byteAt l i := by
  simp [byteAt, List.getElem?_take_of_lt h]

theorem slice_take {l : List Byte} {off k n : Nat} (h : off + k ≤ n) : slice (l.take n) off k = slice l off k := by
  rw [slice, slice, List.drop_take, List.take_take, Nat.min_eq_left (by omega)]

theorem be32At_take {l : List Byte} {i n : Nat} (h : i + 4 ≤ n) : be32At (l.take n) i = be32At l i := by
  rw [be32At, be32At, slice_take h]

/-- A byte that names a choice of two is one of the two. -/
theorem byte_le_one {b : Byte} (h : b.toNat ≤ 1) : b = 0 ∨ b = 1 := by bv_omega

theorem byte_ne_of_one_lt {b : Byte} (h : 1 < b.toNat) : b ≠ 0 ∧ b ≠ 1 := by
  constructor <;> (rintro rfl; simp at h)

/-! ### An arrival that reaches its tests -/

/-- Counting a request changes the two Received counters alone. -/
theorem received_frame (r : Request) (u : State) :
    ∃ a b, received r u = { u with net := { u.net with received := a }, cell := { u.cell with received := b } } := by
  unfold received
  cases r.port with
  | net => exact ⟨_, u.cell.received, rfl⟩
  | cell => exact ⟨u.net.received, _, rfl⟩

@[simp] theorem received_port (r : Request) (u : State) :
    (received r u).port r.port = { u.port r.port with received := satAdd (u.port r.port).received 1 } :=
  port_setPort_self u r.port _

/-- An accepted request, once counted, passes the tests of R146. -/
theorem requestAllowed_received {r : Request} {u : State} (h : Accepted r u) :
    requestAllowed r (received r u) = true := by
  obtain ⟨-, -, hport, hgroup, hsource, -⟩ := h
  obtain ⟨a, b, hr⟩ := received_frame r u
  rw [hr]
  simp [requestAllowed, hport, hgroup, hsource]

/-- An accepted request is run on the state that counted it, and its answer placed with the NOTICE after it. -/
theorem arriveRequest_of_accepted {code : Byte} {run : Request → State → Answer} {r : Request} {u w : State}
    {status : Status} {payload : List Byte} (h : Accepted r u)
    (hrun : run r (received r u) = { state := w, status := status, payload := payload }) :
    arriveRequest code run r u = answered code r u w status payload := by
  have hallowed := requestAllowed_received h
  obtain ⟨hup, ⟨hshort, hlong⟩, -, -, -, hroom, hversion, hpayload⟩ := h
  have hlength : r.lengthOk = true := by simp [Request.lengthOk, hshort, hlong]
  have harrive : arriveRequest code run r u = serveRequest code (some run) r (received r u) := by
    simp [arriveRequest, received, hup, hlength]
  have hanswer : answerRequest (some run) r (received r u) = ⟨w, status, payload, false⟩ := by
    rw [← hrun]
    simp [answerRequest, hversion, Nat.not_lt.mpr hpayload]
  have hserve : serveRequest code (some run) r (received r u) = executeRequest code (some run) r (received r u) := by
    have hroom' : ¬ 4 ≤ ((received r u).port r.port).replyQueue.length := by simpa using hroom
    rw [serveRequest, hallowed, if_neg hroom']
    rfl
  obtain ⟨a, b, hr⟩ := received_frame r u
  rw [harrive, hserve, executeRequest, hanswer, hr]
  rfl

/-- Step 5 of R148 passes for the size the request has. -/
theorem withLength_of_eq {r : Request} {n : Nat} (h : r.payloadLength.toNat = n) (s : State) (k : List Byte → Answer) :
    withLength r n s k = k (r.payload.take n) :=
  if_pos h

/-- The token test passes and sets the failure count to 0 (R149, R150). -/
theorem withToken_of_passes {r : Request} {u : State} (h : TokenPasses r u) (k : State → Answer) :
    withToken r (received r u) k = k (admitted r u) := by
  obtain ⟨hlockout, htoken⟩ := h
  have htest : tokenTest r (received r u) = (admitted r u, none) := by
    simp [tokenTest, admitted, received, countReceived, hlockout, htoken]
  rw [withToken, htest]

/-! ### READ_COUNTERS (R155) -/

/-- The six counters of a port in the order of R9. -/
def portCounters (p : PortState) : List (BitVec 32) :=
  [p.received, p.forwarded, p.queueFullDrops, p.formatDrops, p.guardDrops, p.linkDrops]

/-- The four decision counters of a slot in the order of R54. -/
def decisionCounters (k : DecisionCounters) : List (BitVec 32) := [k.permitted, k.denied, k.clamped, k.refused]

/-- The management counters in the order of R151. -/
def managementCounters (k : ManagementCounters) : List (BitVec 32) :=
  [k.notRequests, k.refused, k.replyFull, k.noticesLost]

/-- The decision counters of the sixteen slots in their order. -/
def slotCounters (s : State) : List (BitVec 32) := allSlots.flatMap (fun i => decisionCounters s.decisions[i])

theorem slotCounters_length (s : State) : (slotCounters s).length = 64 := by
  simp [slotCounters, decisionCounters, allSlots]

/-- The 80 counters of R155 in their order. -/
def counters (s : State) : List (BitVec 32) :=
  portCounters s.net ++ portCounters s.cell ++ slotCounters s ++ managementCounters s.management

/-- The READ COUNTERS payload is the 80 counters, four bytes each, and the clock. -/
theorem counterBytes_eq (s : State) :
    counterBytes s = (counters s).flatMap (fun c => beBytes 4 c.toNat) ++ beBytes 6 s.clock := by
  simp [counterBytes, counters, portCounterBytes, portCounters, decisionCounterBytes, decisionCounters, slotCounters,
    managementCounterBytes, managementCounters, List.flatMap_assoc]

/-- In a concatenation of runs of one length `n`, the run `i` begins at `n * i`. -/
theorem drop_flatMap {α β : Type} {f : α → List β} {n : Nat} (hf : ∀ x, (f x).length = n) (l : List α) (i : Nat) :
    (l.flatMap f).drop (n * i) = (l.drop i).flatMap f := by
  induction l generalizing i with
  | nil => simp
  | cons x rest ih =>
    cases i with
    | zero => simp
    | succ i =>
      rw [List.flatMap_cons, List.drop_succ_cons, ← ih i, show n * (i + 1) = (f x).length + n * i by rw [hf]; ring,
        List.drop_append]
      simp

theorem counters_length (s : State) : (counters s).length = 80 := by
  simp [counters, portCounters, slotCounters_length, managementCounters]

theorem counterBytes_length (s : State) : (counterBytes s).length = 326 := by
  simp [counterBytes_eq, List.length_flatMap, counters_length]

/-- The counter `i` of the 80 is read at byte `4 * i`. -/
theorem be32At_counterBytes {s : State} {off : Nat} (i : Nat) {c : BitVec 32} (hoff : off = 4 * i)
    (h : (counters s)[i]? = some c) : be32At (counterBytes s) off = c := by
  obtain ⟨hi, rfl⟩ := List.getElem?_eq_some_iff.mp h
  have hfield : slice (counterBytes s) off 4 = beBytes 4 (counters s)[i].toNat := by
    rw [slice, hoff, counterBytes_eq, List.drop_append, drop_flatMap fun c : BitVec 32 => beBytes_length 4 c.toNat,
      List.drop_eq_getElem_cons hi, List.flatMap_cons, List.append_assoc, List.take_left' (beBytes_length _ _)]
  rw [be32At, hfield, beNat_beBytes_of_lt (counters s)[i].isLt, BitVec.ofNat_toNat, BitVec.setWidth_eq]

/-- The clock is read behind the counters, cut to its 48 bits. -/
theorem be48At_counterBytes (s : State) : be48At (counterBytes s) 320 = BitVec.ofNat 48 s.clock := by
  have hlen : ((counters s).flatMap (fun c => beBytes 4 c.toNat)).length = 320 := by
    simp [List.length_flatMap, counters_length]
  have hfield : slice (counterBytes s) 320 6 = beBytes 6 s.clock := by
    rw [counterBytes_eq, ← hlen, ← Nat.add_zero (List.length _), slice_append_right]
    simp [slice, List.take_of_length_le]
  rw [be48At, hfield, beNat_beBytes]
  exact BitVec.eq_of_toNat_eq (by simp)

/-- The counters of a slot stand behind the twelve of the ports, four for each slot before it. -/
theorem counters_slot (s : State) (i : Fin 16) {k : Nat} (hk : k < 4) :
    (counters s)[12 + (4 * i.val + k)]? = (decisionCounters s.decisions[i])[k]? := by
  have hslots : (slotCounters s).drop (4 * i.val) =
      decisionCounters s.decisions[i] ++
        (allSlots.drop (i.val + 1)).flatMap (fun i => decisionCounters s.decisions[i]) := by
    rw [slotCounters, drop_flatMap (n := 4) fun _ => rfl, List.drop_eq_getElem_cons (by simp [allSlots]), List.flatMap_cons]
    simp [allSlots]
  have hports : (portCounters s.net ++ portCounters s.cell).length = 12 := rfl
  rw [counters, List.append_assoc, List.getElem?_append_right (by omega), hports, Nat.add_sub_cancel_left,
    ← List.getElem?_drop, List.drop_append_of_le_length (by rw [slotCounters_length]; omega), hslots,
    List.append_assoc, List.getElem?_append_left (by simpa [decisionCounters] using hk)]

/-- The management counters stand behind those of the sixteen slots. -/
theorem counters_management (s : State) (k : Nat) :
    (counters s)[76 + k]? = (managementCounters s.management)[k]? := by
  have hlen : (portCounters s.net ++ portCounters s.cell ++ slotCounters s).length = 76 := by
    simp [portCounters, slotCounters_length]
  rw [counters, List.getElem?_append_right (by omega), hlen, Nat.add_sub_cancel_left]

/-- What READ_COUNTERS answers for each option (R155). -/
theorem doReadCounters_eq {r : Request} (hlen : r.payloadLength = 1) (s : State) :
    doReadCounters r s =
      if byteAt r.payload 0 = 0 then reply s (counterBytes s)
      else if byteAt r.payload 0 = 1 then reply (clearCounters s) (counterBytes s)
      else refuse s .badArgument := by
  rw [doReadCounters, withLength_of_eq (by rw [hlen]; rfl), byteAt_take (by decide)]

/-- Clearing leaves nothing of the request's own count (R155). -/
theorem clearCounters_received (r : Request) (u : State) : clearCounters (received r u) = clearCounters u := by
  obtain ⟨a, b, hr⟩ := received_frame r u
  rw [hr]
  rfl

/-- Settles O40: the payload is the 80 counters and the clock, each field read at its place; the two options and the
refusal are the branches of READ_COUNTERS. -/
theorem readCountersTakesAndClears : Obligations.ReadCountersTakesAndClears := by
  intro dt r s hacc hlen
  have hexec : exec (.readCounters dt r) s = .next (arriveRequest 0x03 doReadCounters r (s.elapse dt)) := rfl
  generalize s.elapse dt = u at hacc hexec ⊢
  rw [hexec]
  have hrun := doReadCounters_eq hlen (received r u)
  constructor
  · intro hoption
    obtain ⟨hkeep, hclear⟩ := byte_ne_of_one_lt hoption
    rw [if_neg hkeep, if_neg hclear] at hrun
    rw [arriveRequest_of_accepted hacc hrun]
  · intro hoption
    refine ⟨counterBytes (received r u), ?_, counterBytes_length _, ?_⟩
    · rcases byte_le_one hoption with hkeep | hclear
      · rw [if_pos hkeep] at hrun ⊢
        rw [arriveRequest_of_accepted hacc hrun]
      · have hkeep : byteAt r.payload 0 ≠ 0 := by rw [hclear]; decide
        rw [if_neg hkeep, if_pos hclear, clearCounters_received] at hrun
        rw [if_neg hkeep, arriveRequest_of_accepted hacc hrun]
        rfl
    · obtain ⟨a, b, hr⟩ := received_frame r u
      rw [hr]
      refine ⟨⟨be32At_counterBytes 0 rfl rfl, be32At_counterBytes 1 rfl rfl, be32At_counterBytes 2 rfl rfl,
          be32At_counterBytes 3 rfl rfl, be32At_counterBytes 4 rfl rfl, be32At_counterBytes 5 rfl rfl⟩,
        ⟨be32At_counterBytes 6 rfl rfl, be32At_counterBytes 7 rfl rfl, be32At_counterBytes 8 rfl rfl,
          be32At_counterBytes 9 rfl rfl, be32At_counterBytes 10 rfl rfl, be32At_counterBytes 11 rfl rfl⟩,
        fun i => ?_, ?_, be48At_counterBytes _⟩
      · exact ⟨be32At_counterBytes _ (by omega) (counters_slot _ i (k := 0) (by decide)),
          be32At_counterBytes _ (by omega) (counters_slot _ i (k := 1) (by decide)),
          be32At_counterBytes _ (by omega) (counters_slot _ i (k := 2) (by decide)),
          be32At_counterBytes _ (by omega) (counters_slot _ i (k := 3) (by decide))⟩
      · exact ⟨be32At_counterBytes _ rfl (counters_management _ 0), be32At_counterBytes _ rfl (counters_management _ 1),
          be32At_counterBytes _ rfl (counters_management _ 2), be32At_counterBytes _ rfl (counters_management _ 3)⟩

/-! ### FETCH_EVENTS (R161) -/

/-- What FETCH_EVENTS answers for the number it is clamped to (R161). -/
theorem doFetchEvents_eq {r : Request} (hlen : r.payloadLength = 1) {n : Nat}
    (hn : n = min (byteAt r.payload 0).toNat 24) (s : State) :
    doFetchEvents r s =
      if n = 0 then refuse s .badArgument
      else
        reply { s with events := s.events.drop n, overflow := false }
          ([BitVec.ofNat 8 (min n s.events.length), boolByte s.overflow, BitVec.ofNat 8 (s.events.length - n), 0] ++
            (s.events.take n).flatMap recordBytes) := by
  rw [doFetchEvents, withLength_of_eq (by rw [hlen]; rfl), byteAt_take (by decide), ← hn]
  dsimp only
  rw [List.length_take, List.length_drop]

/-! ### FORGET_SHADOW (R90) -/

theorem slotOfByte_eq_some {b : Byte} {slot : Fin 16} (h : b.toNat = slot.val) : slotOfByte b = some slot := by
  simp [slotOfByte, h]

theorem slotOfByte_eq_none {b : Byte} (h : 16 ≤ b.toNat) : slotOfByte b = none := by
  simp [slotOfByte, h]

/-- The Shadow entries that a FORGET_SHADOW of a scope byte leaves (R90). -/
def keptShadow (l : List ShadowEntry) (slot : Fin 16) (scope : Byte) (object : BitVec 32) : List ShadowEntry :=
  l.filter (fun e => decide (e.slot ≠ slot) || (scope == 0 && decide (e.object ≠ object)))

/-- Scope ONE leaves every entry but the one of the key. -/
theorem keptShadow_one (l : List ShadowEntry) (slot : Fin 16) (object : BitVec 32) :
    keptShadow l slot 0 object = withoutKey l slot object := by
  refine List.filter_congr fun e _ => ?_
  by_cases hs : e.slot = slot <;> by_cases ho : e.object = object <;> simp [hs, ho]

/-- Scope ALL leaves the entries of the other slots. -/
theorem keptShadow_all (l : List ShadowEntry) (slot : Fin 16) (object : BitVec 32) :
    keptShadow l slot 1 object = l.filter (fun e => e.slot != slot) := by
  refine List.filter_congr fun e _ => ?_
  by_cases h : e.slot = slot <;> simp [h]

@[simp] theorem admitted_shadow (r : Request) (u : State) : (admitted r u).shadow = u.shadow := by
  simp [admitted, countReceived]

section
variable {r : Request} {u : State}

/-- FORGET_SHADOW removes the entries that the slot and the scope name, and counts them (R90). -/
theorem doForgetShadow_of_scope (hlen : r.payloadLength = 6) (htoken : TokenPasses r u) {slot : Fin 16}
    (hslot : (byteAt r.payload 0).toNat = slot.val) (hscope : (byteAt r.payload 1).toNat ≤ 1) :
    doForgetShadow r (received r u) =
      let kept := keptShadow u.shadow slot (byteAt r.payload 1) (be32At r.payload 2)
      reply { admitted r u with shadow := kept } (beBytes 2 (u.shadow.length - kept.length)) := by
  rw [doForgetShadow, withToken_of_passes htoken, withLength_of_eq (by rw [hlen]; rfl), byteAt_take (by decide),
    byteAt_take (by decide), be32At_take (by decide), slotOfByte_eq_some hslot]
  dsimp only
  rcases byte_le_one hscope with hone | hall
  · rw [if_pos hone, hone, keptShadow_one, admitted_shadow]
  · have hone : byteAt r.payload 1 ≠ 0 := by rw [hall]; decide
    rw [if_neg hone, if_pos hall, hall, keptShadow_all, admitted_shadow]

/-- FORGET_SHADOW refuses a slot or a scope that does not exist (R90). -/
theorem doForgetShadow_badArgument (hlen : r.payloadLength = 6) (htoken : TokenPasses r u)
    (hargument : 16 ≤ (byteAt r.payload 0).toNat ∨ 1 < (byteAt r.payload 1).toNat) :
    doForgetShadow r (received r u) = refuse (admitted r u) .badArgument := by
  rw [doForgetShadow, withToken_of_passes htoken, withLength_of_eq (by rw [hlen]; rfl), byteAt_take (by decide),
    byteAt_take (by decide)]
  rcases hargument with hslot | hscope
  · rw [slotOfByte_eq_none hslot]
  · obtain ⟨hone, hall⟩ := byte_ne_of_one_lt hscope
    cases slotOfByte (byteAt r.payload 0) with
    | none => rfl
    | some slot =>
      dsimp only
      rw [if_neg hone, if_neg hall]

end

/-- Settles O47: FETCH_EVENTS for no record and for some, FORGET_SHADOW for arguments that name entries and for others. -/
theorem fetchAndForgetRemoveWhatTheySay : Obligations.FetchAndForgetRemoveWhatTheySay := by
  intro dt r s hacc
  have hfetch : exec (.fetchEvents dt r) s = .next (arriveRequest 0x0D doFetchEvents r (s.elapse dt)) := rfl
  have hforget : exec (.forgetShadow dt r) s = .next (arriveRequest 0x0F doForgetShadow r (s.elapse dt)) := rfl
  generalize s.elapse dt = u at hacc hfetch hforget ⊢
  rw [hfetch, hforget]
  refine ⟨fun hlen hzero => ?_, fun n hlen hsome hn => ?_, fun slot hlen htoken hslot hscope => ?_,
    fun hlen htoken hargument => ?_⟩
  · have hrun := doFetchEvents_eq hlen (n := 0) (by rw [hzero]; rfl) (received r u)
    rw [if_pos rfl] at hrun
    rw [arriveRequest_of_accepted hacc hrun]
  · have hpos : n ≠ 0 := by
      have hbyte : (byteAt r.payload 0).toNat ≠ 0 := fun h => hsome (BitVec.eq_of_toNat_eq h)
      omega
    have hrun := doFetchEvents_eq hlen hn (received r u)
    rw [if_neg hpos] at hrun
    obtain ⟨a, b, hr⟩ := received_frame r u
    rw [arriveRequest_of_accepted hacc hrun, hr]
    rfl
  · rw [arriveRequest_of_accepted hacc (doForgetShadow_of_scope hlen htoken hslot hscope)]
    rfl
  · rw [arriveRequest_of_accepted hacc (doForgetShadow_badArgument hlen htoken hargument)]

end Sys2Proof.Proofs.ManagementLink
end

section
/-! What a command can do to the state, said once (O2, O51, O52, O54 to O56, O58 to O60): every operation of the model is
a run of small changes, each with the condition under which the model makes it. An invariant of the whole machine is then
checked against the list of small changes. -/

namespace Sys2Proof.Proofs.Changes

open Sys2Proof Sys2Proof.Machine Sys2Proof.Claims Sys2Proof.Laws

/-! ### The small changes -/

/-- The changes an expiry is made of: none of them sets a deadline but the interval timer's next. -/
inductive Fade : State → State → Prop
  /-- a record of this instant -/
  | record {s : State} (e : EventRecord) (h : e.time = s.clock) : Fade s (s.record e)
  /-- an Outstanding entry that has reached its Deadline, removed and recorded with it (R80) -/
  | timeout {s : State} {slot : Fin 16} {tag : BitVec 32} {e : Outstanding} (hf : findEntry s slot tag = some e)
      (hd : e.deadline ≤ s.clock) (r : EventRecord) (hr : r.time = e.deadline) :
      Fade s ((removeEntry s slot tag).record r)
  /-- a guard replaced, no window begun -/
  | guard {s : State} (i : Fin 16) (g : Option SlotGuard)
      (h : ∀ x d, g = some x → x.state = .window d → ∃ y, s.guards[i] = some y ∧ y.state = .window d) :
      Fade s (s.setGuard i g)
  /-- a Download Record freed, or replaced by one of its controller and Idle Deadline -/
  | load {s : State} (d : Fin 4) (r : Option Download)
      (h : ∀ x, r = some x →
        ∃ y, s.loads[d] = some y ∧ y.controller = x.controller ∧ y.idleDeadline = x.idleDeadline) :
      Fade s (s.setLoad d r)
  | alert {s : State} (a : Bool) : Fade s { s with alert := a }
  | permit {s : State} (p : Bool) : Fade s { s with permit := p, permitPeriod := none }
  | interval {s : State} (t : Nat) (h : s.intervalNext = some t) (hd : t ≤ s.clock) :
      Fade s { s with intervalNext := some (t + 1000) }
  | lockout {s : State} : Fade s { s with lockoutEnd := none }
  | save {s : State} (q : SaveResult) (m : List (Nat × Byte)) (f : Nat)
      (h : memoryWf s.memory = true → memoryWf m = true) :
      Fade s { s with save := none, lastSave := q, memory := m, freeValues := f }

/-- The changes that no port takes part in. `token` is that of the SET MODE request that is carried, if one is. -/
inductive Work (token : Option (BitVec 64)) : State → State → Prop
  | fade {s t : State} (h : Fade s t) : Work token s t
  /-- a guard whose window, if it has one, ends no sooner than now (R95) -/
  | window {s : State} (i : Fin 16) (x : SlotGuard) (h : ∀ d, x.state = .window d → s.clock ≤ d) :
      Work token s (s.setGuard i (some x))
  /-- a Download Record made or changed: the only one of its controller, unless it takes its place (R110) -/
  | load {s : State} (d : Fin 4) (r : Download) (hd : s.clock ≤ r.idleDeadline)
      (hc : (∃ q, s.loads[d] = some q ∧ q.controller = r.controller) ∨
        ∀ (e : Fin 4) (q : Download), s.loads[e] = some q → q.controller ≠ r.controller) :
      Work token s (s.setLoad d (some r))
  | entry {s : State} (e : Outstanding) (hr : hasRoom s e.slot e.tag = true) (hd : s.clock ≤ e.deadline) :
      Work token s (makeEntry s e)
  | drop {s : State} (p : Outstanding → Bool) : Work token s { s with outstanding := s.outstanding.filter p }
  | forget {s : State} (p : ShadowEntry → Bool) : Work token s { s with shadow := s.shadow.filter p }
  | learn {s : State} (e : ShadowEntry) : Work token s { s with shadow := shadowInsert s.shadow e }
  | count {s : State} (v : Vector DecisionCounters 16) (k : ManagementCounters) :
      Work token s { s with decisions := v, management := k }
  | failures {s : State} (k : Fin 3) : Work token s { s with tokenFailures := k }
  | lockout {s : State} : Work token s { s with tokenFailures := 0, lockoutEnd := some (s.clock + 60000) }
  | fetch {s : State} (n : Nat) : Work token s { s with events := s.events.drop n, overflow := false }
  | bank {s : State} (b : Bank) (h : s.lock = false) : Work token s (s.setInactiveBank b)
  | swap {s : State} (h : s.lock = false) (hp : firstFailure s.station s.inactiveBank = none) :
      Work token s { s with active := otherBank s.active }
  | lock {s : State} : Work token s { s with lock := true }
  | mode {s : State} (m : Mode) (hm : m ≠ .starting)
      (h : s.mode = .enforce → m = .passive → token = some s.settings.token) : Work token s { s with mode := m }
  | settings {s : State} (t : Settings) (h : token = none) : Work token s { s with settings := t }
  | save {s : State} (r : SaveRun) (hr : s.clock ≤ r.limit) (m : List (Nat × Byte))
      (h : memoryWf s.memory = true → memoryWf m = true) : Work token s { s with save := some r, memory := m }
  | restart {s : State} : Work token s { s with restartPending := true }
  /-- Port Units changed outside their queues: counters, and a Link State -/
  | ports {s : State} (n c : PortState)
      (hn : n.forwardQueue = s.net.forwardQueue ∧ n.replyQueue = s.net.replyQueue)
      (hc : c.forwardQueue = s.cell.forwardQueue ∧ c.replyQueue = s.cell.replyQueue) :
      Work token s { s with net := n, cell := c }

/-- All the changes but the passing of time, the reset and the start. -/
inductive Act (token : Option (BitVec 64)) : State → State → Prop
  | work {s t : State} (h : Work token s t) : Act token s t
  /-- a Port Unit whose queues grow no longer: a grant, or a flush -/
  | port {s : State} (p : Port) (ps : PortState) (hf : ps.forwardQueue.length ≤ (s.port p).forwardQueue.length)
      (hr : ps.replyQueue.length ≤ (s.port p).replyQueue.length) : Act token s (s.setPort p ps)
  | forward {s : State} (p : Port) (frame : List Byte) (h : (s.port p).forwardQueue.length < 32) :
      Act token s (forwardFrame s p frame)
  | reply {s : State} (p : Port) (r : Reply) (h : (s.port p).replyQueue.length < 4) :
      Act token s (s.setPort p (placeReply (s.port p) r))
  | notice {s : State} (u : State) : Act token s (noticeAfter u s)
  | link {s : State} (p : Port) (high : Bool) : Act token s (s.setLink p high)
  | pin {s : State} (high : Bool) (p : Option Nat) (h : ∀ t, p = some t → s.clock ≤ t) :
      Act token s { s with chgPermit := high, permitPeriod := p }

/-- Runs of changes. -/
abbrev Fades : State → State → Prop := Relation.ReflTransGen Fade

abbrev Works (token : Option (BitVec 64)) : State → State → Prop := Relation.ReflTransGen (Work token)

abbrev Acts (token : Option (BitVec 64)) : State → State → Prop := Relation.ReflTransGen (Act token)

section
variable {token : Option (BitVec 64)} {s t u : State}

theorem Fades.works (h : Fades s t) : Works token s t :=
  Relation.ReflTransGen.mono (fun _ _ => Work.fade) _ _ h

theorem Works.acts (h : Works token s t) : Acts token s t :=
  Relation.ReflTransGen.mono (fun _ _ => Act.work) _ _ h

/-- A property that every small change keeps is kept by a run of them. -/
theorem run_keeps {r : State → State → Prop} {P : State → Prop} (hr : ∀ s t, r s t → P s → P t)
    (h : Relation.ReflTransGen r s t) (hs : P s) : P t := by
  induction h with
  | refl => exact hs
  | tail _ hbc ih => exact hr _ _ hbc ih

/-- A fold of operations, each a run of changes. -/
theorem run_foldl {r : State → State → Prop} {α : Type} {f : State → α → State}
    (hf : ∀ s x, Relation.ReflTransGen r s (f s x)) (l : List α) (s : State) :
    Relation.ReflTransGen r s (l.foldl f s) := by
  induction l generalizing s with
  | nil => exact .refl
  | cons x rest ih => exact (hf s x).trans (ih (f s x))

end

/-! ### Expiries -/

theorem fades_record {s : State} {e : EventRecord} (h : e.time = s.clock) : Fades s (s.record e) :=
  .single (.record e h)

/-- A Download Record freed. -/
theorem fades_free (s : State) (d : Fin 4) : Fades s (s.setLoad d none) :=
  .single (.load d none fun x hx => by cases hx)

theorem abortLoad_fades (s : State) (d : Fin 4) (reason : Reason) : Fades s (abortLoad s d reason) := by
  unfold abortLoad
  split
  · exact .refl
  · exact (fades_free s d).trans (fades_record rfl)

theorem abortForWindow_fades (s : State) (i : Fin 16) : Fades s (abortForWindow s i) := by
  unfold abortForWindow
  split
  · exact .refl
  · split
    · split
      · exact abortLoad_fades _ _ _
      · exact .refl
    · exact .refl

/-- A guard state other than WINDOW set. -/
theorem withGuardState_fades (s : State) (i : Fin 16) {g : GuardState} (hg : ∀ d, g ≠ .window d) :
    Fades s (withGuardState s i g) := by
  unfold withGuardState
  split
  · next sg h =>
    refine .single (.guard i _ fun x d hx hw => ?_)
    cases hx
    exact absurd hw (hg d)
  · exact .refl

@[simp] theorem withGuardState_clock (s : State) (i : Fin 16) (g : GuardState) :
    (withGuardState s i g).clock = s.clock := by
  obtain ⟨v, h⟩ := withGuardState_frame s i g
  rw [h]

theorem closeWindow_fades (s : State) (i : Fin 16) (reason : Reason) (source : Option MacAddress) :
    Fades s (closeWindow s i reason source) := by
  unfold closeWindow
  split
  · have hrecord : Fades s ((withGuardState s i .normal).record
        { time := s.clock, kind := .windowClosed, reason := some reason, slot := some i, source := source }) :=
      (withGuardState_fades s i (by simp)).trans (fades_record (by simp))
    dsimp only
    split
    · exact hrecord
    · exact hrecord.trans (abortForWindow_fades _ _)
  · exact .refl

theorem closeWindows_fades (s : State) (l : List (Fin 16)) (reason : Reason) (source : Option MacAddress) :
    Fades s (closeWindows s l reason source) :=
  run_foldl (fun s i => closeWindow_fades s i reason source) l s

theorem windowExpire_fades (s : State) (i : Fin 16) : Fades s (windowExpire s i) := by
  unfold windowExpire
  split
  · split
    · exact closeWindow_fades _ _ _ _
    · exact .refl
  all_goals exact .refl

theorem permitExpire_fades (s : State) : Fades s (permitExpire s) := by
  unfold permitExpire
  split
  · split
    · have hpermit : Fades s { s with permit := s.chgPermit, permitPeriod := none } := .single (.permit _)
      dsimp only
      split
      · exact hpermit
      · exact hpermit.trans (closeWindows_fades _ _ _ _)
    · exact .refl
  · exact .refl

/-- A guard rewritten with its state kept: its score. -/
theorem fades_score {s : State} {i : Fin 16} {g x : SlotGuard} (hg : s.guards[i] = some g) (hx : x.state = g.state) :
    Fades s (s.setGuard i (some x)) := by
  refine .single (.guard i _ fun y d hy hw => ⟨g, hg, ?_⟩)
  cases hy
  exact hx.symm.trans hw

theorem countViolation_fades (s : State) (i : Fin 16) : Fades s (countViolation s i) := by
  unfold countViolation
  split
  · next g hg =>
    split
    · exact .refl
    · exact fades_score hg rfl
  · exact .refl

theorem freezeSlot_fades (s : State) (i : Fin 16) (average : Nat) : Fades s (freezeSlot s i average) := by
  unfold freezeSlot
  refine Relation.ReflTransGen.tail ?_ (.alert true)
  exact ((closeWindow_fades s i .frozen none).trans (withGuardState_fades _ i (by simp))).trans (fades_record rfl)

theorem scoreSlot_fades (s : State) (i : Fin 16) : Fades s (scoreSlot s i) := by
  unfold scoreSlot
  split
  · next g hg =>
    split
    · exact .refl
    · dsimp only
      split
      · refine .trans ?_ (freezeSlot_fades _ _ _)
        exact fades_score hg rfl
      · exact fades_score hg rfl
  · exact .refl

theorem intervalExpire_fades (s : State) : Fades s (intervalExpire s) := by
  unfold intervalExpire
  split
  · next t ht =>
    split
    · next hd =>
      refine (run_foldl scoreSlot_fades (usedSlots s.activeBank) s).tail (.interval t ?_ ?_)
      all_goals
        obtain ⟨g, v, l, o, a, h⟩ := scoreSlots_frame s (usedSlots s.activeBank)
        rw [h]
        assumption
    · exact .refl
  · exact .refl

/-- A Download Record rewritten with its controller and Idle Deadline kept. -/
theorem fades_load {s : State} {d : Fin 4} {q x : Download} (hq : s.loads[d] = some q)
    (hc : q.controller = x.controller) (hd : q.idleDeadline = x.idleDeadline) : Fades s (s.setLoad d (some x)) := by
  refine .single (.load d _ fun y hy => ⟨q, hq, ?_⟩)
  cases hy
  exact ⟨hc, hd⟩

theorem applyReport_fades (s : State) (slot : Fin 16) (d : Fin 4) (kind : EntryKind) (positive : Bool) :
    Fades s (applyReport s slot d kind positive) := by
  unfold applyReport
  split
  · exact .refl
  · next r hr =>
    split
    · exact .refl
    · split
      · split
        · exact .refl
        · exact abortLoad_fades _ _ _
      · split
        · exact .refl
        · dsimp only
          split
          · refine .trans ?_ (abortLoad_fades _ _ _)
            exact fades_load hr rfl rfl
          · exact fades_load hr rfl rfl
      · exact (fades_free s d).trans (fades_record rfl)
      · exact .refl

theorem responseExpire_fades (s : State) (slot : Fin 16) (tag : BitVec 32) : Fades s (responseExpire s slot tag) := by
  unfold responseExpire
  split
  · exact .refl
  · next e he =>
    split
    · next hd =>
      have hgone : Fades s ((removeEntry s slot tag).record (entryRecord .responseTimeout e.deadline e)) :=
        .single (.timeout he hd _ rfl)
      dsimp only
      split
      · exact hgone
      · exact hgone
      · exact hgone.trans (applyReport_fades _ _ _ _ _)
      · exact hgone
    · exact .refl

theorem idleExpire_fades (s : State) (d : Fin 4) : Fades s (idleExpire s d) := by
  unfold idleExpire
  split
  · exact .refl
  · split
    · exact abortLoad_fades _ _ _
    · exact .refl

theorem lockoutExpire_fades (s : State) : Fades s (lockoutExpire s) := by
  unfold lockoutExpire
  split
  · split
    · exact .single .lockout
    · exact .refl
  · exact .refl

theorem saveExpire_fades (s : State) : Fades s (saveExpire s) := by
  unfold saveExpire
  split
  · exact .refl
  · next run _ =>
    split
    · refine (fades_record (e := saveRecord s .saveFailed run) rfl).tail (.save _ _ _ fun h => ?_)
      exact memoryWrite_wf _ _ _ (by simpa using h)
    · exact .refl

theorem abandonSave_fades (s : State) : Fades s (abandonSave s) := by
  unfold abandonSave
  split
  · exact .refl
  · exact .single (.save s.lastSave _ _ fun h => memoryWrite_wf _ _ _ h)

theorem endSave_fades (s : State) (misread : List (Nat × Byte)) : Fades s (endSave s misread) := by
  unfold endSave
  split
  · exact .refl
  · next run _ =>
    dsimp only
    split
    · refine (fades_record (e := saveRecord s .saveDone run) rfl).tail (.save _ _ _ fun h => ?_)
      exact memoryWrite_wf _ _ _ (by simpa using h)
    · refine (fades_record (e := saveRecord s .saveFailed run) rfl).tail (.save _ _ _ fun h => ?_)
      exact memoryWrite_wf _ _ _ (memoryWrite_wf _ _ _ (memoryWrite_wf _ _ _ (by simpa using h)))

/-- What a deadline's expiry does before its NOTICE. -/
def expiry : Timer → State → State
  | .permit, s => permitExpire s
  | .window i, s => windowExpire s i
  | .interval, s => intervalExpire s
  | .response slot tag, s => responseExpire s slot tag
  | .idle d, s => idleExpire s d
  | .lockout, s => lockoutExpire s
  | .save, s => saveExpire s

theorem expire_eq (t : Timer) (s : State) : expire t s = noticeAfter s (expiry t s) := by
  cases t <;> rfl

theorem expiry_fades (t : Timer) (s : State) : Fades s (expiry t s) := by
  cases t with
  | permit => exact permitExpire_fades s
  | window i => exact windowExpire_fades s i
  | interval => exact intervalExpire_fades s
  | response slot tag => exact responseExpire_fades s slot tag
  | idle d => exact idleExpire_fades s d
  | lockout => exact lockoutExpire_fades s
  | save => exact saveExpire_fades s

/-- A property that fading, a NOTICE and a change of the clock keep is kept while time passes. -/
theorem elapse_keeps {P : State → Prop} (hc : ∀ s c, P s → P { s with clock := c })
    (hf : ∀ s t, Fade s t → P s → P t) (hn : ∀ u s, P s → P (noticeAfter u s)) {s : State} (n : Nat) (hs : P s) :
    P (s.elapse n) :=
  elapse_induction hc (fun t s h => by
    rw [expire_eq]
    exact hn _ _ (run_keeps hf (expiry_fades t s) h)) s n hs

end Sys2Proof.Proofs.Changes
end

section
/-! The changes each command makes: the decision of a frame, a request, a link, the reset and the start. -/

namespace Sys2Proof.Proofs.Changes

open Sys2Proof Sys2Proof.Machine Sys2Proof.Claims Sys2Proof.Laws

/-! ### What no change of `Work` touches -/

section
variable {token : Option (BitVec 64)} {s t : State}

/-- What the ports' queues, the clock, the pins and the waiting commands are to a change. -/
structure SameOutside (s t : State) : Prop where
  resetN : t.resetN = s.resetN
  clock : t.clock = s.clock
  station : t.station = s.station
  pending : t.pending = s.pending
  forwards : ∀ p, (t.port p).forwardQueue = (s.port p).forwardQueue
  replies : ∀ p, (t.port p).replyQueue = (s.port p).replyQueue

theorem SameOutside.refl (s : State) : SameOutside s s := ⟨rfl, rfl, rfl, rfl, fun _ => rfl, fun _ => rfl⟩

theorem SameOutside.trans {u : State} (h : SameOutside s t) (h' : SameOutside t u) : SameOutside s u :=
  ⟨h'.resetN.trans h.resetN, h'.clock.trans h.clock, h'.station.trans h.station, h'.pending.trans h.pending,
    fun p => (h'.forwards p).trans (h.forwards p), fun p => (h'.replies p).trans (h.replies p)⟩

theorem SameOutside.record (s : State) (e : EventRecord) : SameOutside s (s.record e) := by
  obtain ⟨l, o, h⟩ := record_frame s e
  rw [h]
  exact ⟨rfl, rfl, rfl, rfl, fun p => by cases p <;> rfl, fun p => by cases p <;> rfl⟩

theorem Fade.sameOutside (h : Fade s t) : SameOutside s t := by
  cases h
  case record => exact .record _ _
  case timeout slot tag e hf hd r hr =>
    exact SameOutside.trans (t := removeEntry s slot tag)
      ⟨rfl, rfl, rfl, rfl, fun p => by cases p <;> rfl, fun p => by cases p <;> rfl⟩ (.record _ _)
  all_goals exact ⟨rfl, rfl, rfl, rfl, fun p => by cases p <;> rfl, fun p => by cases p <;> rfl⟩

theorem Work.sameOutside (h : Work token s t) : SameOutside s t := by
  cases h
  case fade h => exact h.sameOutside
  case bank b _ =>
    exact ⟨setInactiveBank_resetN _ _, setInactiveBank_clock _ _, setInactiveBank_station _ _,
      setInactiveBank_pending _ _, fun p => by cases p <;> simp [State.port], fun p => by cases p <;> simp [State.port]⟩
  case ports n c hn hc =>
    exact ⟨rfl, rfl, rfl, rfl, fun p => by cases p; exacts [hn.1, hc.1], fun p => by cases p; exacts [hn.2, hc.2]⟩
  all_goals exact ⟨rfl, rfl, rfl, rfl, fun p => by cases p <;> rfl, fun p => by cases p <;> rfl⟩

theorem Works.sameOutside (h : Works token s t) : SameOutside s t := by
  induction h with
  | refl => exact .refl s
  | tail _ hbc ih => exact ih.trans hbc.sameOutside

end

/-! ### The decision of a command -/

variable {token : Option (BitVec 64)}

theorem works_record {s : State} {e : EventRecord} (h : e.time = s.clock) : Works token s (s.record e) :=
  (fades_record h).works

/-- A Port Unit changed outside its queues. -/
theorem works_port (s : State) (p : Port) (ps : PortState) (hf : ps.forwardQueue = (s.port p).forwardQueue)
    (hr : ps.replyQueue = (s.port p).replyQueue) : Works token s (s.setPort p ps) := by
  cases p with
  | net => exact .single (.ports ps s.cell ⟨hf, hr⟩ ⟨rfl, rfl⟩)
  | cell => exact .single (.ports s.net ps ⟨rfl, rfl⟩ ⟨hf, hr⟩)

theorem countReceived_works (s : State) (p : Port) : Works token s (countReceived s p) := works_port s p _ rfl rfl

theorem countFormatDrop_works (s : State) (p : Port) : Works token s (countFormatDrop s p) := works_port s p _ rfl rfl

theorem countQueueFull_works (s : State) (p : Port) : Works token s (countQueueFull s p) := works_port s p _ rfl rfl

theorem countGuardDrop_works (s : State) (p : Port) : Works token s (countGuardDrop s p) := works_port s p _ rfl rfl

theorem countLinkDrop_works (s : State) (p : Port) : Works token s (countLinkDrop s p) := works_port s p _ rfl rfl

theorem countDecision_works (s : State) (slot : Fin 16) (d : Decision) : Works token s (countDecision s slot d) :=
  .single (.count _ s.management)

theorem endingRecord_time (time : Nat) (slot : Option (Fin 16)) (source : MacAddress) (object : Option (BitVec 32))
    (e : Ending) : (endingRecord time slot source object e).time = time := by
  cases e <;> rfl

theorem passiveRecord_time (e : EventRecord) : (passiveRecord e).time = e.time := by
  unfold passiveRecord
  split <;> rfl

theorem applyEnding_works (s : State) (slot : Fin 16) (source : MacAddress) (object : Option (BitVec 32)) (e : Ending) :
    Works token s (applyEnding s slot source object e) := by
  unfold applyEnding
  have hcounted : Works token s (countDecision (s.record (endingRecord s.clock (some slot) source object e)) slot
      (.ends e)) := (works_record (endingRecord_time _ _ _ _ _)).trans (countDecision_works _ _ _)
  have hviolation : Works token s (if isViolation e then countViolation (countDecision
      (s.record (endingRecord s.clock (some slot) source object e)) slot (.ends e)) slot
      else countDecision (s.record (endingRecord s.clock (some slot) source object e)) slot (.ends e)) := by
    split
    · exact hcounted.trans (countViolation_fades _ _).works
    · exact hcounted
  dsimp only
  split
  · exact hviolation.trans (countGuardDrop_works _ _)
  · exact hviolation

theorem noteEnding_works (s : State) (slot : Fin 16) (source : MacAddress) (object : Option (BitVec 32))
    (e : Option Ending) : Works token s (noteEnding s slot source object e) := by
  cases e with
  | none => exact .refl
  | some e => exact works_record ((passiveRecord_time _).trans (endingRecord_time _ _ _ _ _))

theorem noteClamp_works (s : State) (c : Command) (rule : Option (Fin 256)) (a : Action) :
    Works token s (noteClamp s c rule a) := by
  unfold noteClamp
  split
  · exact works_record (passiveRecord_time _)
  · exact .refl

/-! ### The load check and tracking -/

theorem trackRequest_deadline {s : State} {c : Command} {a : Action} {d : Option (Fin 4)} {e : Outstanding}
    (h : trackRequest s c a d = some e) : s.clock ≤ e.deadline := by
  have hdue : e.deadline = s.clock + responseTimeoutMs c.profile := by
    unfold trackRequest at h
    split at h
    · split at h <;> cases h
      rfl
    all_goals cases h
    all_goals rfl
  omega

theorem trackStep_works (s : State) (c : Command) (a : Action) (d : Option (Fin 4)) :
    Works token s (trackStep s c a d).1 := by
  unfold trackStep
  split
  · exact .refl
  · next e he =>
    split
    · next hroom => exact .single (.entry e hroom (trackRequest_deadline he))
    · exact .refl

/-- Tracking leaves the Download Records. -/
theorem trackStep_loads (s : State) (c : Command) (a : Action) (d : Option (Fin 4)) :
    (trackStep s c a d).1.loads = s.loads := by
  unfold trackStep
  split
  · rfl
  · split <;> rfl

theorem loadOf_eq_some {s : State} {slot : Fin 16} {d : Fin 4} (h : loadOf s slot = some d) :
    ∃ r, s.loads[d] = some r ∧ r.controller = slot := by
  have hd := List.find?_some h
  split at hd
  · next r hr => exact ⟨r, hr, by simpa using hd⟩
  · cases hd

theorem loadOf_eq_none {s : State} {slot : Fin 16} (h : loadOf s slot = none) (d : Fin 4) (r : Download)
    (hr : s.loads[d] = some r) : r.controller ≠ slot := by
  have hd := List.find?_eq_none.mp h d (List.mem_finRange d)
  rw [hr] at hd
  simpa using hd

/-- A record in a Download Slot, or room for one, in the way R114 makes it. -/
def Places (s : State) (slot : Fin 16) (d : Fin 4) : Prop :=
  (∃ q, s.loads[d] = some q ∧ q.controller = slot) ∨
    ∀ (e : Fin 4) (q : Download), s.loads[e] = some q → q.controller ≠ slot

/-- A pass that begins a load begins it where the controller's record stands, or where it has none (R114). -/
theorem loadVerdict_begin {s : State} {c : Command} {d : Fin 4} (h : loadVerdict s c = .pass d .begin) :
    Places s c.slot d := by
  unfold loadVerdict at h
  split at h
  · unfold beginVerdict at h
    split at h
    · next e he =>
      cases h
      exact .inl (loadOf_eq_some he)
    · next hnone => exact .inr (loadOf_eq_none hnone)
  · exfalso
    split at h
    · cases h
    · split at h
      · cases h
      · split at h
        · cases h
        · split at h
          · cases h
          · split at h
            · unfold activateVerdict at h
              split at h <;> cases h
            · split at h
              · unfold segmentVerdict at h
                split at h
                · split at h <;> cases h
                · split at h
                  · split at h <;> cases h
                  · cases h
              · cases h

/-- A record put in a slot and a record added to the Event Queue stand in either order. -/
theorem setLoad_record (s : State) (d : Fin 4) (r : Option Download) (e : EventRecord) :
    (s.record e).setLoad d r = (s.setLoad d r).record e := by
  unfold State.record State.setLoad
  split <;> rfl

/-- A new record begun: the one it takes the place of is aborted first (R114, R127). -/
theorem applyLoadChange_begin (s : State) (c : Command) (d : Fin 4) :
    applyLoadChange s c d .begin =
      ((match s.loads[d] with
        | some r => (s.setLoad d (some (newDownload s c))).record (abortRecord s r .restarted)
        | none => s.setLoad d (some (newDownload s c)))).record
        { time := s.clock, kind := .loadStarted, slot := some c.slot, source := some c.source } := by
  unfold applyLoadChange abortLoad
  cases s.loads[d] with
  | none => rfl
  | some r =>
    have htwice : (s.setLoad d none).setLoad d (some (newDownload s c)) = s.setLoad d (some (newDownload s c)) := by
      simp [State.setLoad]
    dsimp only
    rw [setLoad_record]
    simp only [newDownload, abortRecord] at htwice ⊢
    rw [htwice]

theorem applyLoadChange_works {s : State} (c : Command) (d : Fin 4) (change : LoadChange)
    (h : change = .begin → Places s c.slot d) : Works token s (applyLoadChange s c d change) := by
  cases change with
  | begin =>
    rw [applyLoadChange_begin]
    have hnew : Works token s (s.setLoad d (some (newDownload s c))) :=
      .single (.load d _ (Nat.le_add_right _ _) (h rfl))
    split
    · exact (hnew.trans (works_record rfl)).trans (works_record (by simp))
    · exact hnew.trans (works_record rfl)
  | fold _ | duplicate =>
    simp only [applyLoadChange]
    split
    · next r hr => exact .single (.load d _ (Nat.le_add_right _ _) (.inl ⟨r, hr, rfl⟩))
    · exact .refl
  | activate i =>
    simp only [applyLoadChange]
    split
    · next r hr =>
      exact .single (.load d _ (by dsimp only; omega) (.inl ⟨r, hr, rfl⟩))
    · exact .refl

theorem applyRefusal_works (s : State) (freed : Option (Fin 4)) : Works token s (applyRefusal s freed) := by
  cases freed with
  | none => exact .refl
  | some d => exact (fades_free s d).works

theorem loadStep_begin {s : State} {c : Command} {d : Fin 4} {change : LoadChange}
    (h : loadStep s c = some (.pass d change)) (hb : change = .begin) : Places s c.slot d := by
  unfold loadStep at h
  split at h
  · subst hb
    exact loadVerdict_begin (Option.some.inj h)
  · cases h

/-! ### Frames of the frame path -/

/-- What a downstream frame's decision comes to: changes alone, or changes and then a frame placed in the CELL forward
queue. -/
def Decided (token : Option (BitVec 64)) (s t : State) : Prop :=
  Works token s t ∨ ∃ v frame, Works token s v ∧ t = forwardFrame v .cell frame

theorem Decided.after {s t u : State} (h : Works token s t) (h' : Decided token t u) : Decided token s u := by
  rcases h' with h' | ⟨v, frame, h', rfl⟩
  · exact .inl (h.trans h')
  · exact .inr ⟨v, frame, h.trans h', rfl⟩

theorem decided_forward {s v : State} (h : Works token s v) (frame : List Byte) :
    Decided token s (forwardFrame v .cell frame) := .inr ⟨v, frame, h, rfl⟩

theorem placeDecided_decided (s : State) (c : Command) (frame : List Byte) (rule : Option (Fin 256)) (a : Action) :
    Decided token s (placeDecided s c frame rule a) := by
  unfold placeDecided
  split
  · exact decided_forward ((works_record rfl).trans (countDecision_works _ _ _)) _
  · exact decided_forward (countDecision_works _ _ _) _

theorem enforceTrack_decided {s : State} (c : Command) (frame : List Byte) (rule : Option (Fin 256)) (a : Action)
    (pass : Option (Fin 4 × LoadChange)) (h : ∀ d, pass = some (d, .begin) → Places s c.slot d) :
    Decided token s (enforceTrack s c frame rule a pass) := by
  unfold enforceTrack
  dsimp only
  split
  · exact .inl (applyEnding_works _ _ _ _ _)
  · refine .after ((trackStep_works s c a (pass.map (·.1))).trans ?_) (placeDecided_decided _ _ _ _ _)
    cases pass with
    | none => exact .refl
    | some x =>
      refine applyLoadChange_works c x.1 x.2 fun hb => ?_
      unfold Places
      rw [trackStep_loads]
      exact h x.1 (by rw [← hb])

theorem enforceCommand_decided (s : State) (c : Command) (l : Layers) (frame : List Byte) :
    Decided token s (enforceCommand s c l frame) := by
  unfold enforceCommand
  split
  · exact .inl (applyEnding_works _ _ _ _ _)
  · dsimp only
    split
    · exact .inl (applyEnding_works _ _ _ _ _)
    · split
      · exact .inl ((applyRefusal_works _ _).trans (applyEnding_works _ _ _ _ _))
      · next d change hl =>
        refine enforceTrack_decided c frame _ _ _ fun d' hd => ?_
        cases hd
        exact loadStep_begin hl rfl
      · exact enforceTrack_decided c frame _ _ _ fun d' hd => by cases hd

theorem passiveLoad_works (s : State) (c : Command) (rule : Option (Fin 256)) :
    Works token s (passiveLoad s c rule).1 := by
  unfold passiveLoad
  split
  · dsimp only
    exact (applyRefusal_works _ _).trans (noteEnding_works _ _ _ _ _)
  · next hl => exact applyLoadChange_works c _ _ (loadStep_begin hl)
  · exact .refl

theorem passiveRest_decided (s : State) (c : Command) (frame : List Byte) (rule : Option (Fin 256)) (a : Action)
    (frozen : Option Ending) : Decided token s (passiveRest s c frame rule a frozen) := by
  unfold passiveRest
  exact decided_forward ((((passiveLoad_works s c rule).trans (trackStep_works _ _ _ _)).trans
    (noteEnding_works _ _ _ _ _)).trans (countDecision_works _ _ _)) _

theorem passiveCommand_decided (s : State) (c : Command) (l : Layers) (frame : List Byte) :
    Decided token s (passiveCommand s c l frame) := by
  unfold passiveCommand
  extract_lets frozen s1 rule a s2
  have hnoted : Works token s s2 :=
    ((noteEnding_works _ _ _ _ _).trans (noteEnding_works _ _ _ _ _)).trans (noteClamp_works _ _ _ _)
  split
  · exact decided_forward (hnoted.trans (countDecision_works _ _ _)) _
  · exact .after hnoted (passiveRest_decided _ _ _ _ _ _)

theorem applyByMode_decided (s : State) (slot : Fin 16) (source : MacAddress) (object : Option (BitVec 32)) (e : Ending)
    (frame : List Byte) : Decided token s (applyByMode s slot source object e frame) := by
  unfold applyByMode
  split
  · exact .inl (applyEnding_works _ _ _ _ _)
  · exact decided_forward ((noteEnding_works _ _ _ _ _).trans (countDecision_works _ _ _)) _

theorem handleDownstream_decided (s : State) (l : Layers) (frame : List Byte) :
    Decided token s (handleDownstream s l frame) := by
  unfold handleDownstream
  split
  · unfold decideCommand
    split
    · exact applyByMode_decided _ _ _ _ _ _
    · split
      · exact enforceCommand_decided _ _ _ _
      · exact passiveCommand_decided _ _ _ _
  · unfold decideUnguarded
    split
    · exact applyByMode_decided _ _ _ _ _ _
    · exact decided_forward (countDecision_works _ _ _) _
  · unfold decideBroadcast
    split
    · exact .inl ((works_record rfl).trans (countGuardDrop_works _ _))
    · exact decided_forward (works_record (passiveRecord_time _)) _
  · exact decided_forward .refl _
  · exact decided_forward .refl _

theorem negativeEffect_fades (s : State) (e : Outstanding) : Fades s (negativeEffect s e) := by
  unfold negativeEffect
  split
  · exact fades_record rfl
  · exact fades_record rfl
  · exact applyReport_fades _ _ _ _ _
  · exact fades_record rfl

theorem positiveEffect_works (s : State) (e : Outstanding) (value : ValueType → Option Int) :
    Works token s (positiveEffect s e value) := by
  unfold positiveEffect
  split
  · split
    · exact .single (.learn _)
    · exact .refl
  · split
    · split
      · exact .single (.learn _)
      · exact (negativeEffect_fades _ _).works
    · exact (negativeEffect_fades _ _).works
  · split
    · exact (applyReport_fades _ _ _ _ _).works
    · exact .refl

theorem removeEntry_works (s : State) (slot : Fin 16) (tag : BitVec 32) : Works token s (removeEntry s slot tag) :=
  .single (.drop _)

theorem handleResponse_works (l : Layers) (s : State) : Works token s (handleResponse l s) := by
  unfold handleResponse
  split
  · unfold matchResponse
    split
    · exact .refl
    · split
      · exact .refl
      · dsimp only
        split
        · exact (removeEntry_works _ _ _).trans (positiveEffect_works _ _ _)
        · exact (removeEntry_works _ _ _).trans (negativeEffect_fades _ _).works
  all_goals exact .refl

/-- A NOTICE makes the NET forward queue no longer: it can only make a grant. -/
theorem noticeAfter_forwards (u w : State) :
    (noticeAfter u w).net.forwardQueue.length ≤ w.net.forwardQueue.length := by
  rcases noticeAfter_cases u w with h | ⟨e, rest, n, -, -, -, h⟩
  · rw [h]
  · rcases offerNotice_cases w n e u.overflow with ⟨-, h'⟩ | ⟨-, -, h'⟩ | ⟨-, -, h'⟩ <;> rw [h, h']
    exact (placeReply_lengths _ _).2

theorem handleTraffic_acts (s : State) (p : Port) (l : Layers) (frame : List Byte) :
    Acts token s (handleTraffic s p l frame) := by
  unfold handleTraffic
  split
  · exact (countQueueFull_works _ _).acts
  · next hroom =>
    split
    · have hcell : s.cell.forwardQueue.length < 32 := by simpa [otherPort, State.port] using hroom
      split
      · exact (countLinkDrop_works _ _).acts
      · refine Relation.ReflTransGen.tail ?_ (.notice s)
        rcases handleDownstream_decided (token := token) s l frame with h | ⟨v, f, h, ht⟩
        · exact h.acts
        · dsimp only
          rw [ht]
          refine h.acts.tail (.forward .cell f ?_)
          rw [h.sameOutside.forwards]
          exact hcell
    · have hnet : s.net.forwardQueue.length < 32 := by simpa [otherPort, State.port] using hroom
      have hresponse : Acts token s (noticing (handleResponse l) s) :=
        (handleResponse_works l s).acts.tail (.notice s)
      unfold placeUpstream
      split
      · refine hresponse.tail (.forward .net frame ?_)
        have hmatched : (handleResponse l s).net.forwardQueue = s.net.forwardQueue :=
          (handleResponse_works (token := token) l s).sameOutside.forwards .net
        exact lt_of_le_of_lt (noticeAfter_forwards _ _) (hmatched ▸ hnet)
      · exact hresponse.trans (countLinkDrop_works _ _).acts


/-! ### Requests -/

/-- The token that a SET MODE request carries: it alone can leave ENFORCE for PASSIVE (R156). -/
def requestToken (code : Byte) (r : Request) : Option (BitVec 64) := if code = 0x09 then some r.token else none

/-- A request whose execution is a run of changes. -/
def RunsChanges (token : Option (BitVec 64)) (r : Request) (run : Request → State → Answer) : Prop :=
  ∀ s, Works token s (run r s).state

section
variable {r : Request}

theorem withLength_works {len : Nat} {s : State} {k : List Byte → Answer}
    (hk : ∀ l, Works token s (k l).state) : Works token s (withLength r len s k).state := by
  rcases withLength_cases r len s k with ⟨-, h⟩ | ⟨-, h⟩ <;> rw [h]
  · exact hk _
  · exact .refl

theorem tokenTest_works (r : Request) (s : State) : Works token s (tokenTest r s).1 := by
  rcases tokenTest_cases r s with ⟨-, h⟩ | ⟨-, -, h⟩ | ⟨-, -, -, h⟩ | ⟨-, -, -, h⟩ <;> simp only [h]
  · exact .refl
  · exact .single (.failures _)
  · refine Relation.ReflTransGen.trans (.single .lockout) (works_record rfl)
  · exact .single (.failures _)

theorem withToken_works {s : State} {k : State → Answer} (hk : ∀ u, Works token u (k u).state) :
    Works token s (withToken r s k).state := by
  rcases withToken_cases r s k with ⟨-, -, h⟩ | ⟨status, -, h⟩ <;> rw [h]
  · exact Relation.ReflTransGen.trans (.single (.failures 0)) (hk _)
  · exact tokenTest_works r s

theorem doIdentify_runs : RunsChanges token r doIdentify := fun _ => withLength_works fun _ => .refl

theorem doReadStatus_runs : RunsChanges token r doReadStatus := fun _ => withLength_works fun _ => .refl

theorem clearCounters_works (s : State) : Works token s (clearCounters s) :=
  Relation.ReflTransGen.trans (.single (.ports (clearPortCounters s.net) (clearPortCounters s.cell) ⟨rfl, rfl⟩ ⟨rfl, rfl⟩))
    (.single (.count (Vector.replicate 16 {}) {}))

theorem doReadCounters_runs : RunsChanges token r doReadCounters := fun s => withLength_works fun l => by
  split
  · exact .refl
  · split
    · exact clearCounters_works s
    · exact .refl

theorem doTableRead_runs : RunsChanges token r doTableRead := fun _ => withLength_works fun l => by
  dsimp only
  split
  · split
    · exact .refl
    · split <;> exact .refl
  · exact .refl

theorem doTableWrite_runs : RunsChanges token r doTableWrite := fun s => by
  unfold doTableWrite
  extract_lets l first count
  split
  · exact .refl
  · next hlock =>
    split
    · exact .refl
    · split
      · exact .refl
      · split
        · exact .refl
        · split
          · exact .refl
          · split
            · exact .refl
            · exact .single (.bank _ (by simpa using hlock))

theorem doBankCopy_runs : RunsChanges token r doBankCopy := fun s => withLength_works fun _ => by
  split
  · exact .refl
  · next hlock => exact .single (.bank _ (by simpa using hlock))

theorem doLockPolicy_runs : RunsChanges token r doLockPolicy := fun _ => withToken_works fun s =>
  withLength_works fun _ => by
    split
    · exact .refl
    · exact Relation.ReflTransGen.trans (.single .lock) (works_record rfl)

theorem modeOfByte_ne_starting {b : Byte} {m : Mode} (h : modeOfByte b = some m) : m ≠ .starting := by
  unfold modeOfByte at h
  split at h
  · cases h; simp
  · split at h <;> cases h
    simp

theorem enterMode_works {s : State} {m : Mode} (source : MacAddress) (hm : m ≠ .starting)
    (h : s.mode = .enforce → m = .passive → token = some s.settings.token) :
    Works token s (enterMode s m source) := by
  unfold enterMode
  split
  · exact .refl
  · exact Relation.ReflTransGen.trans (.single (.mode m hm h)) (works_record rfl)

/-- SET MODE leaves ENFORCE for PASSIVE only after its token test (R156). -/
theorem doSetMode_runs (htoken : token = some r.token) : RunsChanges token r doSetMode := fun s =>
  withLength_works fun l => by
    split
    · exact .refl
    · next m hm =>
      split
      · rcases withToken_cases r s (fun s => reply (enterMode s m r.source) [modeCode m]) with
          ⟨-, hright, h⟩ | ⟨status, -, h⟩ <;> rw [h]
        · refine Relation.ReflTransGen.trans (.single (.failures 0)) (enterMode_works _ (modeOfByte_ne_starting hm) ?_)
          intro _ _
          rw [htoken, hright]
        · exact tokenTest_works r s
      · next hn =>
        exact enterMode_works _ (modeOfByte_ne_starting hm) fun he hp => absurd ⟨he, hp⟩ hn

/-- A guard state of WINDOW set, to end no sooner than now. -/
theorem withGuardState_works (s : State) (i : Fin 16) {g : GuardState} (hg : ∀ d, g = .window d → s.clock ≤ d) :
    Works token s (withGuardState s i g) := by
  unfold withGuardState
  split
  · exact .single (.window i _ hg)
  · exact .refl

theorem openSlot_works (seconds : Nat) (source : MacAddress) (s : State) (i : Fin 16) :
    Works token s (openSlot seconds source s i) := by
  unfold openSlot
  refine (withGuardState_works s i fun d hd => ?_).trans (works_record (by simp))
  cases hd
  omega

theorem doOpenWindow_runs : RunsChanges token r doOpenWindow := fun _ => withToken_works fun s =>
  withLength_works fun l => by
    extract_lets slots duration
    split
    · exact .refl
    · split
      · exact .refl
      · split
        · exact .refl
        · exact run_foldl (openSlot_works _ _) slots s

theorem doCloseWindow_runs : RunsChanges token r doCloseWindow := fun s => withLength_works fun l => by
  dsimp only
  split
  · exact .refl
  · exact (closeWindows_fades _ _ _ _).works

theorem thawSlot_fades (s : State) (i : Fin 16) (source : Option MacAddress) : Fades s (thawSlot s i source) := by
  unfold thawSlot
  split
  · refine Relation.ReflTransGen.trans (.single (.guard i _ fun x d hx hw => ?_)) (fades_record rfl)
    cases hx
    cases hw
  · exact .refl

theorem doThaw_runs : RunsChanges token r doThaw := fun _ => withToken_works fun s => withLength_works fun l => by
  dsimp only
  split
  · exact .refl
  · exact Fades.works ((run_foldl (fun s i => thawSlot_fades s i _) _ s).tail (.alert _))

theorem doFetchEvents_runs : RunsChanges token r doFetchEvents := fun _ => withLength_works fun l => by
  dsimp only
  split
  · exact .refl
  · exact .single (.fetch _)

theorem doReadShadow_runs : RunsChanges token r doReadShadow := fun _ => withLength_works fun l => by
  split <;> exact .refl

theorem doForgetShadow_runs : RunsChanges token r doForgetShadow := fun _ => withToken_works fun s =>
  withLength_works fun l => by
    split
    · exact .refl
    · split
      · exact .single (.forget _)
      · split
        · exact .single (.forget _)
        · exact .refl

theorem doReadLoads_runs : RunsChanges token r doReadLoads := fun _ => withLength_works fun _ => .refl

theorem doSetNoticeDestination_runs (htoken : token = none) : RunsChanges token r doSetNoticeDestination := fun _ =>
  withLength_works fun l => by
    dsimp only
    split
    · exact .single (.settings _ htoken)
    · split
      · exact .refl
      · exact .single (.settings _ htoken)

theorem doSetSettings_runs (htoken : token = none) : RunsChanges token r doSetSettings := fun _ =>
  withToken_works fun s => withLength_works fun l => by
    split
    · exact .refl
    · exact .single (.settings _ htoken)

theorem doSave_runs : RunsChanges token r doSave := fun _ => withToken_works fun s => withLength_works fun _ => by
  split
  · exact .refl
  · exact .single (.save _ (Nat.le_add_right _ _) _ fun h => memoryWrite_wf _ _ _ h)

theorem doRestart_runs : RunsChanges token r doRestart := fun _ => withToken_works fun s => withLength_works fun _ => by
  split
  · exact .refl
  · exact .single .restart

end

/-! ### COMMIT -/

theorem commitSlot_fades (usedNew : Bool) (s : State) (i : Fin 16) : Fades s (commitSlot usedNew s i) := by
  unfold commitSlot
  refine ((closeWindow_fades _ _ _ _).trans (thawSlot_fades _ _ _)).tail (.guard i _ fun x d hx hw => ?_)
  split at hx
  · cases hx
    cases hw
  · cases hx

theorem abortForPolicy_fades (s : State) (changed : List (Fin 16)) : Fades s (abortForPolicy s changed) := by
  refine run_foldl (fun s d => ?_) allLoads s
  split
  · split
    · exact abortLoad_fades _ _ _
    · exact .refl
  · exact .refl

theorem trackerPolicy_works (s : State) (changed : List (Fin 16)) : Works token s (trackerPolicy s changed) :=
  Relation.ReflTransGen.trans (.single (.drop _)) (.single (.forget _))

theorem clearDecisions_works (s : State) (changed : List (Fin 16)) : Works token s (clearDecisions s changed) :=
  .single (.count _ s.management)

theorem setAlert_fades (s : State) : Fades s (setAlert s) := .single (.alert _)

theorem swapBanks_works {s : State} (source : MacAddress) (hlock : s.lock = false)
    (hpass : firstFailure s.station s.inactiveBank = none) : Works token s (swapBanks s source) := by
  unfold swapBanks
  extract_lets changed s0 s1 s2 s3 s4
  have h0 : Works token s s0 := .single (.swap hlock hpass)
  have h1 : Fades s0 s1 := run_foldl (fun s i => commitSlot_fades _ s i) changed s0
  have h2 : Fades s1 s2 := setAlert_fades s1
  have h3 : Fades s2 s3 := abortForPolicy_fades s2 changed
  have h4 : Works token s3 s4 := (trackerPolicy_works s3 changed).trans (clearDecisions_works _ changed)
  have h5 : Fades s0 s3 := (h1.trans h2).trans h3
  have h6 : Works token s s4 := (h0.trans h5.works).trans h4
  clear_value s4
  exact h6.trans (works_record rfl)

theorem doCommit_runs {r : Request} : RunsChanges token r doCommit := fun s => withLength_works fun _ => by
  split
  · exact .refl
  · next hlock =>
    split
    · exact .refl
    · next hpass =>
      rw [Guards.reply_state]
      exact swapBanks_works _ (by simpa using hlock) hpass

theorem requestOfCode_runs {code : Byte} {run : Request → State → Answer} (h : requestOfCode code = some run)
    (r : Request) : RunsChanges (requestToken code r) r run := by
  have hset : code = 0x09 → requestToken code r = some r.token := fun hc => if_pos hc
  have hnone : code ≠ 0x09 → requestToken code r = none := fun hc => if_neg hc
  unfold requestOfCode at h
  split at h <;> cases h
  · exact doIdentify_runs
  · exact doReadStatus_runs
  · exact doReadCounters_runs
  · exact doTableRead_runs
  · exact doTableWrite_runs
  · exact doBankCopy_runs
  · exact doCommit_runs
  · exact doLockPolicy_runs
  · next hc => exact doSetMode_runs (hset (by bv_omega))
  · exact doOpenWindow_runs
  · exact doCloseWindow_runs
  · exact doThaw_runs
  · exact doFetchEvents_runs
  · exact doReadShadow_runs
  · exact doForgetShadow_runs
  · exact doReadLoads_runs
  · next hc => exact doSetNoticeDestination_runs (hnone (by bv_omega))
  · next hc => exact doSetSettings_runs (hnone (by bv_omega))
  · exact doSave_runs
  · exact doRestart_runs

/-! ### What a command comes to -/

/-- What a command does once its time has passed: changes, and at the very end perhaps the reset (R164, R172). -/
def Outcome (token : Option (BitVec 64)) (s t : State) : Prop :=
  Acts token s t ∨ ∃ v high, Acts token s v ∧ t = resetPart v high

theorem Outcome.after {s t u : State} (h : Acts token s t) (h' : Outcome token t u) : Outcome token s u := by
  rcases h' with h' | ⟨v, high, h', rfl⟩
  · exact .inl (h.trans h')
  · exact .inr ⟨v, high, h.trans h', rfl⟩

theorem reportReply_outcome (s : State) (r : Reply) : Outcome token s (reportReply s r) := by
  rcases reportReply_cases s r with ⟨-, h⟩ | ⟨-, h⟩ <;> rw [h]
  · exact .inl .refl
  · exact .inr ⟨s, true, .refl, rfl⟩

/-- The reset taken twice is the reset. -/
theorem resetPart_resetPart (s : State) (a b : Bool) : resetPart (resetPart s a) b = resetPart s b := rfl

theorem reportReplies_outcome (s : State) (l : List Reply) : Outcome token s (reportReplies s l) := by
  have hreset : ∀ (l : List Reply) (v : State), reportReplies (resetPart v true) l = resetPart v true := by
    intro l
    induction l with
    | nil => exact fun v => rfl
    | cons r rest ih =>
      intro v
      have hr : reportReply (resetPart v true) r = resetPart v true := by
        rcases reportReply_cases (resetPart v true) r with ⟨-, h⟩ | ⟨-, h⟩ <;> rw [h]
        rw [resetPart_resetPart]
      simp only [reportReplies, List.foldl_cons, hr] at ih ⊢
      exact ih v
  induction l with
  | nil => exact .inl .refl
  | cons r rest ih =>
    rcases reportReply_cases s r with ⟨-, h⟩ | ⟨-, h⟩
    · simpa only [reportReplies, List.foldl_cons, h] using ih
    · refine .inr ⟨s, true, .refl, ?_⟩
      rw [← hreset rest s]
      simp only [reportReplies, List.foldl_cons, h]

theorem noticeAfter_reset (u s : State) (high : Bool) : noticeAfter u (resetPart s high) = resetPart s high := by
  unfold noticeAfter
  split
  · next e rest n _ he _ => cases he
  · rfl

theorem serveRequest_outcome {code : Byte} {run : Option (Request → State → Answer)}
    (hrun : ∀ f, run = some f → requestOfCode code = some f) (r : Request) (s : State) :
    Outcome (requestToken code r) s (serveRequest code run r s) := by
  rcases serveRequest_cases code run r s with ⟨-, h⟩ | ⟨-, -, h⟩ | ⟨-, hroom, h⟩ <;> rw [h]
  · exact .inl (Relation.ReflTransGen.single (.work (.count s.decisions _)))
  · exact .inl (Relation.ReflTransGen.single (.work (.count s.decisions _)))
  · have hanswer : Works (requestToken code r) s (answerRequest run r s).state := by
      rcases answerRequest_cases run r s with ⟨f, hf, -, -, ha⟩ | ⟨status, ha⟩ <;> rw [ha]
      · exact requestOfCode_runs (hrun f hf) r s
      · exact .refl
    unfold executeRequest
    generalize answerRequest run r s = a at hanswer
    dsimp only
    generalize (Reply.mk _ _) = answer
    have hroom' : (a.state.port r.port).replyQueue.length < 4 := by
      rw [hanswer.sameOutside.replies]
      exact hroom
    rcases offerReply_cases a.state r.port answer with ⟨-, ho⟩ | ⟨-, ho⟩ <;> rw [ho]
    · exact .inl ((hanswer.acts.tail (.reply _ _ hroom')).tail (.notice s))
    · rcases reportReply_cases a.state answer with ⟨-, hr⟩ | ⟨-, hr⟩ <;> rw [hr]
      · exact .inl (hanswer.acts.tail (.notice s))
      · exact .inr ⟨a.state, true, hanswer.acts, noticeAfter_reset _ _ _⟩

theorem arriveRequest_outcome {code : Byte} {run : Request → State → Answer} (h : requestOfCode code = some run)
    (r : Request) (s : State) : Outcome (requestToken code r) s (arriveRequest code run r s) := by
  unfold arriveRequest
  split
  · exact .inl .refl
  · split
    · exact .inl ((countReceived_works _ _).acts.trans (countFormatDrop_works _ _).acts)
    · refine .after (countReceived_works _ _).acts (serveRequest_outcome (fun f hf => ?_) r _)
      exact hf ▸ h

/-- The token of the SET MODE request that a command carries, if it carries one. -/
def tokenOf (c : Instr) : Option (BitVec 64) := (carried c).bind fun x => requestToken x.1 x.2

theorem tokenOf_frameArrival {dt : Nat} {p : Port} {frame : List Byte} {code : Byte} {r : Request}
    (h : requestOfFrame p (readLayers (withoutFcs frame)) = some (code, r)) :
    tokenOf (.frameArrival dt p frame) = requestToken code r := by
  simp [tokenOf, carried, h]

theorem arriveFrame_outcome (dt : Nat) (s : State) (p : Port) (frame : List Byte) :
    Outcome (tokenOf (.frameArrival dt p frame)) s (arriveFrame s p frame) := by
  unfold arriveFrame
  split
  · exact .inl .refl
  · extract_lets s1 l managed
    have hcount : Acts (tokenOf (.frameArrival dt p frame)) s s1 := (countReceived_works s p).acts
    split
    · exact .inl (hcount.trans (countFormatDrop_works _ _).acts)
    · split
      · refine .after hcount ?_
        unfold handleManagement
        split
        · next code r hr =>
          rw [tokenOf_frameArrival hr]
          exact serveRequest_outcome (fun f hf => hf) r s1
        · exact .inl (Relation.ReflTransGen.single (.work (.count s1.decisions _)))
      · exact .inl (hcount.trans (handleTraffic_acts _ _ _ _))

theorem expire_acts (t : Timer) (s : State) : Acts token s (expire t s) := by
  rw [expire_eq]
  exact (expiry_fades t s).works.acts.tail (.notice s)

theorem changePermit_acts (s : State) (high : Bool) : Acts token s (changePermit s high) := by
  unfold changePermit
  split
  · exact .refl
  · refine (expire_acts .permit s).trans ?_
    unfold permitPin
    split
    · exact .refl
    · refine Relation.ReflTransGen.single (.pin high _ fun t ht => ?_)
      split at ht <;> cases ht
      exact Nat.le_add_right _ _

/-- A port's Link State goes to UP, with a record. -/
theorem upRecord_acts (s : State) (p : Port) {e : EventRecord} (h : e.time = s.clock) :
    Acts token s ((s.setPort p { s.port p with up := true }).record e) :=
  (works_port s p { s.port p with up := true } rfl rfl).acts.trans
    (works_record (h.trans (setPort_clock _ _ _).symm)).acts

theorem portUp_acts (p : Port) (s : State) : Acts token s (portUp p s) := upRecord_acts s p rfl

theorem portDown_acts (p : Port) (s : State) : Acts token s (portDown p s) := by
  have hflush : Acts token s (s.setPort p (flushPort (s.port p))) :=
    Relation.ReflTransGen.single (.port p _ (Nat.zero_le _) (Nat.zero_le _))
  have hrecord : Acts token s ((s.setPort p (flushPort (s.port p))).record (linkRecord s p false)) :=
    hflush.trans (works_record (by cases p <;> rfl)).acts
  unfold portDown
  dsimp only
  refine Relation.ReflTransGen.trans ?_ (Fades.works (run_foldl (fun s d => abortLoad_fades s d .link) allLoads _)).acts
  cases p with
  | net => exact hrecord
  | cell =>
    refine hrecord.trans (Works.acts ?_)
    have hempty : ∀ u : State, trackerCellDown u =
        { { u with outstanding := u.outstanding.filter fun _ => false } with
          shadow := u.shadow.filter fun _ => false } := fun u => by simp [trackerCellDown]
    rw [hempty]
    exact Relation.ReflTransGen.trans (.single (.drop _)) (.single (.forget _))

theorem changeLink_outcome (s : State) (p : Port) (high : Bool) : Outcome token s (changeLink s p high) := by
  unfold changeLink
  split
  · exact .inl .refl
  · dsimp only
    have hlink : Acts token s (s.setLink p high) := Relation.ReflTransGen.single (.link p high)
    split
    · refine .after hlink ?_
      unfold linkFollows
      split
      · exact .inl ((portUp_acts p _).tail (.notice _))
      · exact .after ((portDown_acts p _).tail (.notice _)) (reportReplies_outcome _ _)
    · exact .inl hlink

theorem completeTransmission_outcome (s : State) (p : Port) : Outcome token s (completeTransmission s p) := by
  have hgrant : ∀ ps : PortState, ps.forwardQueue = (s.port p).forwardQueue → ps.replyQueue = (s.port p).replyQueue →
      Acts token s (s.setPort p (grant ps)) := fun ps hf hr =>
    Relation.ReflTransGen.single (.port p _ (hf ▸ (grant_lengths ps).1) (hr ▸ (grant_lengths ps).2))
  unfold completeTransmission
  dsimp only
  split
  · exact .inl .refl
  · exact .inl (hgrant _ rfl rfl)
  · refine .after ?_ (reportReply_outcome _ _)
    exact hgrant _ rfl rfl

/-! ### The start -/

theorem portUpAtStart_acts (p : Port) (high : Bool) (s : State) : Acts token s (portUpAtStart p high s) := by
  unfold portUpAtStart
  split
  · exact upRecord_acts s p rfl
  · exact .refl

theorem finishStart_acts (s : State) (outcome : StartOutcome) : Acts token s (finishStart s outcome) := by
  unfold finishStart
  extract_lets s1 s2 s3
  have h1 : Acts token s s1 := (works_record rfl).acts.tail (.notice s)
  have h2 : Acts token s1 s2 := (portUpAtStart_acts .net _ _).tail (.notice s1)
  have h3 : Acts token s2 s3 := (portUpAtStart_acts .cell _ _).tail (.notice s2)
  exact ((h1.trans h2).trans h3).trans ((works_record rfl).acts.tail (.notice s3))

/-- The bank that passes with a good image is the one classified. -/
theorem classifyImage_passes {station : MacAddress} {header body : List Byte} {t : Settings} {b : Bank}
    (h : (classifyImage station header body).2 = some (t, b)) : firstFailure station b = none := by
  unfold classifyImage at h
  split at h
  · cases h
  · split at h
    · cases h
    · split at h
      · cases h
      · unfold checkedBody at h
        split at h
        · next c hc =>
          cases h
          split at hc
          · cases hc
          · dsimp only at hc
            split at hc
            · next hpass =>
              obtain ⟨-, hb⟩ := Prod.mk.inj (Option.some.inj hc)
              exact hb ▸ hpass
            · cases hc
        · cases h

/-- The state a start installs: the settings and bank of a good image, or the fallback ones (R165 to R167). -/
theorem endStarting_outcome (s : State) (answers : Bool) :
    ∃ station outcome t b, (firstFailure station b = none ∨ b = {}) ∧
      Acts token (installStart s station outcome t b) (endStarting s answers) := by
  unfold endStarting
  extract_lets station c content
  refine ⟨station, c.1, content.1, content.2, ?_, finishStart_acts _ _⟩
  rcases hc : c.2 with _ | ⟨t, b⟩
  · right
    simp only [content, hc, Option.getD_none]
  · left
    simp only [content, hc, Option.getD_some]
    exact classifyImage_passes hc

/-! ### Every command, every step -/

/-- What a command comes to from the state in which it is taken: changes with the reset at their end, or a start. -/
def Taken (c : Instr) (u t : State) : Prop :=
  Outcome (tokenOf c) u t ∨
  (u.resetN = true ∧ u.mode = .starting ∧ ∃ station outcome settings bank,
    (firstFailure station bank = none ∨ bank = {}) ∧ Acts none (installStart u station outcome settings bank) t)

/-- A request row comes to what its request does. -/
theorem row_outcome {c : Instr} {code : Byte} {run : Request → State → Answer} {r : Request} {u : State}
    (h : requestOfCode code = some run) (ht : tokenOf c = requestToken code r) :
    Outcome (tokenOf c) u (arriveRequest code run r u) := by
  rw [ht]
  exact arriveRequest_outcome h r u

theorem exec_taken {c : Instr} {s t : State} (h : exec c s = .next t) : ∃ dt, Taken c (s.elapse dt) t := by
  cases c <;> obtain rfl := Host.Outcome.next.inj h
  case resetNAssert dt =>
    refine ⟨dt, .inl ?_⟩
    unfold assertReset
    split
    · exact .inr ⟨_, _, (abandonSave_fades _).works.acts, rfl⟩
    · exact .inl .refl
  case resetNRelease dt =>
    refine ⟨dt, .inl ?_⟩
    unfold releaseReset
    split
    · exact .inl .refl
    · exact .inr ⟨_, _, .refl, rfl⟩
  case startingEnd dt answers =>
    refine ⟨dt, ?_⟩
    split
    · next hu => exact .inr ⟨hu.1, hu.2, endStarting_outcome _ _⟩
    · exact .inl (.inl .refl)
  case linkChanged dt p high => exact ⟨dt, .inl (changeLink_outcome _ _ _)⟩
  case frameArrival dt p frame => exact ⟨dt, .inl (arriveFrame_outcome _ _ _ _)⟩
  case transmissionComplete dt p => exact ⟨dt, .inl (completeTransmission_outcome _ _)⟩
  case chgPermitPinChange dt high => exact ⟨dt, .inl (.inl (changePermit_acts _ _))⟩
  case saveEnd dt misread => exact ⟨dt, .inl (.inl ((endSave_fades _ _).works.acts.tail (.notice _)))⟩
  case responseTimeout dt _ _ | windowExpiry dt _ | permitFilterExpiry dt | intervalExpiry dt | idleExpiry dt _ |
      lockoutEnd dt | saveTimeout dt =>
    exact ⟨dt, .inl (.inl (expire_acts _ _))⟩
  all_goals exact ⟨_, .inl (row_outcome rfl rfl)⟩

/-- An invariant that a change of the queue, the passing of time, every small change, the reset and a start keep is kept by
every step. -/
theorem step_keeps {P : State → Prop} (hpending : ∀ s l, P s → P { s with pending := l })
    (helapse : ∀ s n, P s → P (s.elapse n)) (hact : ∀ token s t, Act token s t → P s → P t)
    (hreset : ∀ s high, P s → P (resetPart s high))
    (hstart : ∀ s station outcome t b, s.resetN = true → s.mode = .starting →
      (firstFailure station b = none ∨ b = {}) → P s → P (installStart s station outcome t b))
    {s t : State} (hs : P s) (h : step s = .next t) : P t := by
  unfold step at h
  split at h
  · cases h
    exact helapse s 1 hs
  · next c rest _ =>
    obtain ⟨dt, ht⟩ := exec_taken h
    have hu : P ({ s with pending := rest }.elapse dt) := helapse _ dt (hpending s rest hs)
    rcases ht with (ht | ⟨v, high, ht, rfl⟩) | ⟨hn, hm, station, outcome, settings, bank, hb, ht⟩
    · exact run_keeps (hact _) ht hu
    · exact hreset v high (run_keeps (hact _) ht hu)
    · exact run_keeps (hact _) ht (hstart _ _ _ _ _ hn hm hb hu)

end Sys2Proof.Proofs.Changes
end

section
/-! Invariants read off the list of small changes: the waiting commands (O2), ENFORCE and the token (O51), the locked
policy (O52), the canonical memory (O54), the queues (O55) and the tables (O56). -/

namespace Sys2Proof.Proofs.Invariants

open Sys2Proof Sys2Proof.Machine Sys2Proof.Claims Sys2Proof.Laws Sys2Proof.Proofs.Changes

variable {token : Option (BitVec 64)} {s t : State}

/-! ### The queue of waiting commands -/

theorem act_pending (h : Act token s t) : t.pending = s.pending := by
  cases h
  case work h => exact h.sameOutside.pending
  case port | forward | reply => exact setPort_pending _ _ _
  case notice => exact noticeAfter_pending _ _
  case link => exact setLink_pending _ _ _
  case pin => rfl

theorem acts_pending (h : Acts token s t) : t.pending = s.pending :=
  run_keeps (P := fun u => u.pending = s.pending) (fun _ _ h hs => (act_pending h).trans hs) h rfl

/-- Settles O2: no small change, reset or start touches the queue. -/
theorem commandsLeaveTheQueueAlone : Obligations.CommandsLeaveTheQueueAlone := by
  intro c s t h
  obtain ⟨dt, ht⟩ := exec_taken h
  refine Eq.trans ?_ (elapse_pending s dt)
  rcases ht with (ht | ⟨v, high, ht, rfl⟩) | ⟨-, -, station, outcome, settings, bank, -, ht⟩
  · exact acts_pending ht
  · exact acts_pending (t := v) ht
  · exact (acts_pending ht).trans rfl

/-! ### ENFORCE is left only with the token (R156) -/

/-- What a command in ENFORCE keeps until its end: the mode, and the token in force while its own SET MODE is decided;
or its request carries the token. -/
def Guarded (token : Option (BitVec 64)) (s u : State) : Prop :=
  (u.mode = .enforce ∧ (token ≠ none → u.settings.token = s.settings.token)) ∨ token = some s.settings.token

theorem fade_mode (h : Fade s t) : t.mode = s.mode ∧ t.settings = s.settings := by
  cases h
  case record | timeout => exact ⟨record_mode _ _, record_settings _ _⟩
  all_goals exact ⟨rfl, rfl⟩

theorem work_guarded {u v : State} (h : Work token u v) (hu : Guarded token s u) : Guarded token s v := by
  rcases hu with ⟨hm, ht⟩ | ht
  · cases h
    case fade h =>
      obtain ⟨hmode, hsettings⟩ := fade_mode h
      exact .inl ⟨hmode.trans hm, by rwa [hsettings]⟩
    case bank => exact .inl ⟨(setInactiveBank_mode _ _).trans hm, by rwa [setInactiveBank_settings]⟩
    case mode m hne hpassive =>
      rcases m with _ | _ | _
      · exact absurd rfl hne
      · have htoken := hpassive hm rfl
        exact .inr (htoken.trans (congrArg some (ht (by simp [htoken]))))
      · exact .inl ⟨rfl, ht⟩
    case settings w hw => exact .inl ⟨hm, fun hn => absurd hw hn⟩
    all_goals exact .inl ⟨hm, ht⟩
  · exact .inr ht

theorem act_guarded {u v : State} (h : Act token u v) (hu : Guarded token s u) : Guarded token s v := by
  rcases hu with ⟨hm, ht⟩ | ht
  · cases h
    case work h => exact work_guarded h (.inl ⟨hm, ht⟩)
    case port | forward | reply => exact .inl ⟨(setPort_mode _ _ _).trans hm, (setPort_settings _ _ _).symm ▸ ht⟩
    case notice => exact .inl ⟨(noticeAfter_mode _ _).trans hm, by rwa [noticeAfter_settings]⟩
    case link => exact .inl ⟨(setLink_mode _ _ _).trans hm, by rwa [setLink_settings]⟩
    case pin => exact .inl ⟨hm, ht⟩
  · exact .inr ht

/-- The request of a SET MODE whose token is known. -/
theorem carried_of_tokenOf {c : Instr} {x : BitVec 64} (h : tokenOf c = some x) :
    ∃ r, carried c = some (0x09, r) ∧ r.token = x := by
  unfold tokenOf at h
  obtain ⟨⟨code, r⟩, hc, hr⟩ := Option.bind_eq_some_iff.mp h
  unfold requestToken at hr
  split at hr
  · next hcode => exact ⟨r, hcode ▸ hc, Option.some.inj hr⟩
  · cases hr

/-- Settles O51: until the end of a command in ENFORCE, the mode stands or the command carries the token. -/
theorem enforceIsLeftOnlyWithTheToken : Obligations.EnforceIsLeftOnlyWithTheToken := by
  intro c s t hmode h hpassive
  obtain ⟨dt, ht⟩ := exec_taken h
  have hstart : Guarded (tokenOf c) s (s.elapse dt) :=
    .inl ⟨(elapse_mode s dt).trans hmode, fun _ => by rw [elapse_settings]⟩
  rcases ht with (ht | ⟨v, high, ht, rfl⟩) | ⟨-, hm, -⟩
  · rcases run_keeps (P := Guarded (tokenOf c) s) (fun _ _ => act_guarded) ht hstart with ⟨hm, -⟩ | htoken
    · rw [hm] at hpassive
      cases hpassive
    · exact carried_of_tokenOf htoken
  · cases hpassive
  · rw [elapse_mode, hmode] at hm
    cases hm

/-! ### The policy lock (R143) -/

/-- The policy of a locked part stands as it was. -/
def Locked (s u : State) : Prop := u.bankA = s.bankA ∧ u.bankB = s.bankB ∧ u.active = s.active ∧ u.lock = true

theorem act_locked {u v : State} (h : Act token u v) (hu : Locked s u) : Locked s v := by
  have hlock := hu.2.2.2
  cases h
  case work h =>
    cases h
    case fade h =>
      cases h
      case record | timeout => simpa [Locked, removeEntry] using hu
      all_goals exact hu
    case bank hn => rw [hlock] at hn; cases hn
    case swap hn hp => rw [hlock] at hn; cases hn
    case lock => exact ⟨hu.1, hu.2.1, hu.2.2.1, rfl⟩
    all_goals exact hu
  case port | forward | reply => simpa [Locked, forwardFrame] using hu
  case notice => simpa [Locked] using hu
  case link => simpa [Locked] using hu
  case pin => exact hu

/-- Settles O52: under the lock every small change leaves the banks, the marker and the lock. -/
theorem lockedPolicyDoesNotChange : Obligations.LockedPolicyDoesNotChange := by
  intro c s t hlock hmode h hend
  obtain ⟨dt, ht⟩ := exec_taken h
  have hstart : Locked s (s.elapse dt) := ⟨elapse_bankA s dt, elapse_bankB s dt, elapse_active s dt,
    (elapse_lock s dt).trans hlock⟩
  rcases ht with (ht | ⟨v, high, ht, rfl⟩) | ⟨-, hm, -⟩
  · exact run_keeps (P := Locked s) (fun _ _ => act_locked) ht hstart
  · exact absurd rfl hend
  · exact absurd ((elapse_mode s dt).symm.trans hm) hmode

/-! ### The serial memory -/

theorem fade_canonical (h : Fade s t) (hs : MemoryCanonical s) : MemoryCanonical t := by
  cases h
  case record | timeout => simpa [MemoryCanonical, removeEntry] using hs
  case save m f h => exact h hs
  all_goals exact hs

theorem act_canonical (h : Act token s t) (hs : MemoryCanonical s) : MemoryCanonical t := by
  cases h
  case work h =>
    cases h
    case fade h => exact fade_canonical h hs
    case bank => simpa [MemoryCanonical] using hs
    case save r hr m h => exact h hs
    all_goals exact hs
  case port | forward | reply => simpa [MemoryCanonical, forwardFrame] using hs
  case notice => simpa [MemoryCanonical] using hs
  case link => simpa [MemoryCanonical] using hs
  case pin => exact hs

/-- Settles O54: only the writes of a SAVE change the memory, and each keeps the canonical form. -/
theorem memoryStaysCanonical : Obligations.MemoryStaysCanonical := fun _ _ hs h =>
  step_keeps (P := MemoryCanonical) (fun _ _ h => h)
    (fun _ n h => elapse_keeps (fun _ _ h => h) (fun _ _ => fade_canonical)
      (fun u _ h => act_canonical (token := none) (.notice u) h) n h)
    (fun _ _ _ => act_canonical) (fun _ _ h => h) (fun _ _ _ _ _ _ _ _ h => h) hs h

/-! ### The queues (R6, R7, R159) -/

/-- The bound of a Port Unit's queues. -/
def PortBounded (p : PortState) : Prop := p.forwardQueue.length ≤ 32 ∧ p.replyQueue.length ≤ 4

theorem queuesBounded_iff : QueuesBounded s ↔ (∀ p, PortBounded (s.port p)) ∧ s.events.length ≤ 64 := by
  constructor
  · rintro ⟨⟨hn, hc⟩, ⟨hn', hc'⟩, he⟩
    exact ⟨fun p => by cases p; exacts [⟨hn, hn'⟩, ⟨hc, hc'⟩], he⟩
  · rintro ⟨hp, he⟩
    exact ⟨⟨(hp .net).1, (hp .cell).1⟩, ⟨(hp .net).2, (hp .cell).2⟩, he⟩

/-- Changes outside the queues keep their bound, with the Event Queue's told apart. -/
theorem queues_of_sameOutside (h : SameOutside s t) (he : t.events.length ≤ 64) (hs : QueuesBounded s) :
    QueuesBounded t := by
  rw [queuesBounded_iff] at hs ⊢
  refine ⟨fun p => ?_, he⟩
  unfold PortBounded
  rw [h.forwards, h.replies]
  exact hs.1 p

theorem queues_setPort {p : Port} {ps : PortState} (hp : PortBounded ps) (hs : QueuesBounded s) :
    QueuesBounded (s.setPort p ps) := by
  rw [queuesBounded_iff] at hs ⊢
  refine ⟨fun q => ?_, by simpa using hs.2⟩
  by_cases hq : q = p
  · subst hq
    simpa using hp
  · have ho : q = otherPort p := by cases p <;> cases q <;> simp_all [otherPort]
    subst ho
    simpa using hs.1 (otherPort p)

theorem fade_queues (h : Fade s t) (hs : QueuesBounded s) : QueuesBounded t := by
  refine queues_of_sameOutside h.sameOutside ?_ hs
  have he : s.events.length ≤ 64 := hs.2.2
  cases h
  case record => exact record_events_length _ _ he
  case timeout slot tag _ _ _ _ _ => exact record_events_length (removeEntry s slot tag) _ he
  all_goals exact he

theorem notice_queues (u : State) (hs : QueuesBounded s) : QueuesBounded (noticeAfter u s) := by
  obtain ⟨⟨hn, hc⟩, ⟨hn', hc'⟩, he⟩ := hs
  obtain ⟨hr, hf⟩ := noticeAfter_net u s hn'
  rw [QueuesBounded, noticeAfter_cell, noticeAfter_events]
  exact ⟨⟨hf.trans hn, hc⟩, ⟨hr, hc'⟩, he⟩

theorem act_queues (h : Act token s t) (hs : QueuesBounded s) : QueuesBounded t := by
  have hports := (queuesBounded_iff.mp hs).1
  cases h
  case work h =>
    refine queues_of_sameOutside h.sameOutside ?_ hs
    have he : s.events.length ≤ 64 := hs.2.2
    cases h
    case fade h => exact (fade_queues h hs).2.2
    case bank => simpa using he
    case fetch n => exact (List.drop_sublist n _).length_le.trans he
    all_goals exact he
  case port p ps hf hr => exact queues_setPort ⟨hf.trans (hports p).1, hr.trans (hports p).2⟩ hs
  case forward p frame h =>
    have hlen := placeForward_lengths (s.port p) frame
    exact queues_setPort ⟨by omega, hlen.2.trans (hports p).2⟩ hs
  case reply p r h =>
    have hlen := placeReply_lengths (s.port p) r
    exact queues_setPort ⟨hlen.2.trans (hports p).1, by omega⟩ hs
  case notice u => exact notice_queues u hs
  case link p high => cases p <;> exact hs
  case pin => exact hs

/-- Settles O55: a frame is placed only where there is room, and a record only among 64. -/
theorem queuesStayBounded : Obligations.QueuesStayBounded := fun _ _ hs h =>
  step_keeps (P := QueuesBounded) (fun _ _ h => h)
    (fun _ n h => elapse_keeps (fun _ _ h => h) (fun _ _ => fade_queues) (fun u _ => notice_queues u) n h)
    (fun _ _ _ => act_queues) (fun _ _ _ => ⟨⟨Nat.zero_le _, Nat.zero_le _⟩, ⟨Nat.zero_le _, Nat.zero_le _⟩, Nat.zero_le _⟩)
    (fun _ _ _ _ _ _ _ _ h => h) hs h

/-! ### The tables (R73, R86, R110) -/

/-- The bound and the keys of the Outstanding Table. -/
def EntriesBounded (l : List Outstanding) : Prop := l.length ≤ 64 ∧ (l.map fun e => (e.slot, e.tag)).Nodup

/-- The bound and the keys of the Shadow Store. -/
def ShadowBounded (l : List ShadowEntry) : Prop := l.length ≤ 512 ∧ (l.map fun e => (e.slot, e.object)).Nodup

theorem EntriesBounded.filter {l : List Outstanding} (h : EntriesBounded l) (p : Outstanding → Bool) :
    EntriesBounded (l.filter p) :=
  ⟨(List.length_filter_le _ _).trans h.1, h.2.sublist (List.filter_sublist.map _)⟩

theorem ShadowBounded.sublist {l k : List ShadowEntry} (h : ShadowBounded l) (hk : k.Sublist l) : ShadowBounded k :=
  ⟨hk.length_le.trans h.1, h.2.sublist (hk.map _)⟩

/-- An entry put behind those of other keys keeps the keys unique. -/
theorem nodup_map_append_singleton {α β : Type} {f : α → β} {l : List α} {x : α} (hl : (l.map f).Nodup)
    (hx : ∀ y ∈ l, f y ≠ f x) : ((l ++ [x]).map f).Nodup := by
  rw [List.map_append, List.map_singleton, List.nodup_append]
  refine ⟨hl, List.nodup_singleton _, fun a ha b hb => ?_⟩
  obtain ⟨y, hy, rfl⟩ := List.mem_map.mp ha
  rw [List.mem_singleton.mp hb]
  exact hx y hy

theorem makeEntry_bounded {e : Outstanding} (h : EntriesBounded s.outstanding) (hr : hasRoom s e.slot e.tag = true) :
    EntriesBounded (makeEntry s e).outstanding := by
  refine ⟨makeEntry_length s e h.1 hr, nodup_map_append_singleton (h.filter _).2 fun x hx hk => ?_⟩
  obtain ⟨hslot, htag⟩ := Prod.mk.inj hk
  simpa [hasKey, hslot, htag] using (List.mem_filter.mp hx).2

theorem withoutKey_sublist (l : List ShadowEntry) (slot : Fin 16) (object : BitVec 32) :
    (withoutKey l slot object).Sublist l := List.filter_sublist

theorem shadowInsert_bounded {l : List ShadowEntry} (h : ShadowBounded l) (e : ShadowEntry) :
    ShadowBounded (shadowInsert l e) := by
  refine ⟨shadowInsert_length l e h.1, ?_⟩
  unfold shadowInsert
  extract_lets others
  have hothers : ∀ x ∈ others, (x.slot, x.object) ≠ (e.slot, e.object) := fun x hx hk => by
    obtain ⟨hslot, hobject⟩ := Prod.mk.inj hk
    simpa [hslot, hobject] using withoutKey_key hx
  have hnodup : (others.map fun e => (e.slot, e.object)).Nodup := (h.sublist (withoutKey_sublist l _ _)).2
  split
  · exact nodup_map_append_singleton (hnodup.sublist ((List.drop_sublist 1 others).map _))
      fun x hx => hothers x (List.mem_of_mem_drop hx)
  · exact nodup_map_append_singleton hnodup hothers

theorem setLoad_get (s : State) (d e : Fin 4) (r : Option Download) :
    (s.setLoad d r).loads[e] = if d = e then r else s.loads[e] := by
  simp [State.setLoad, Vector.getElem_set, Fin.ext_iff]

/-- A record put where its controller's stands, or where its controller has none, stays the only one of it. -/
theorem oneLoad_setLoad {d : Fin 4} {r : Download} (h : OneLoadEach s)
    (hc : (∃ q, s.loads[d] = some q ∧ q.controller = r.controller) ∨
      ∀ (e : Fin 4) (q : Download), s.loads[e] = some q → q.controller ≠ r.controller) :
    OneLoadEach (s.setLoad d (some r)) := by
  have hother : ∀ (e : Fin 4) (q : Download), e ≠ d → s.loads[e] = some q → q.controller ≠ r.controller := by
    intro e q hne hq hk
    rcases hc with ⟨x, hx, hxr⟩ | hnone
    · exact hne (h e d q x hq hx (hk.trans hxr.symm))
    · exact hnone e q hq hk
  intro e f q x hq hx hk
  rw [setLoad_get] at hq hx
  split at hq <;> split at hx
  · next he hf => exact he.symm.trans hf
  · next he hf =>
    cases hq
    exact absurd hk.symm (hother f x (Ne.symm hf) hx)
  · next he hf =>
    cases hx
    exact absurd hk (hother e q (Ne.symm he) hq)
  · exact h e f q x hq hx hk

theorem oneLoad_free (d : Fin 4) (h : OneLoadEach s) : OneLoadEach (s.setLoad d none) := by
  intro e f q x hq hx hk
  rw [setLoad_get] at hq hx
  split at hq
  · cases hq
  · split at hx
    · cases hx
    · exact h e f q x hq hx hk

/-- The tables of a state, as what its invariant reads. -/
theorem tables_congr (ho : t.outstanding = s.outstanding) (hsh : t.shadow = s.shadow) (hl : t.loads = s.loads)
    (hs : TablesBounded s) : TablesBounded t := by
  simpa only [TablesBounded, EntriesUnique, OneLoadEach, ho, hsh, hl] using hs

theorem fade_tables (h : Fade s t) (hs : TablesBounded s) : TablesBounded t := by
  obtain ⟨hentries, hshadow, hloads⟩ := hs
  cases h
  case record => exact tables_congr (by simp) (by simp) (by simp) ⟨hentries, hshadow, hloads⟩
  case timeout slot tag _ _ _ _ _ =>
    exact tables_congr (s := removeEntry s slot tag) (by simp) (by simp) (by simp)
      ⟨EntriesBounded.filter hentries _, hshadow, hloads⟩
  case load d r hr =>
    refine ⟨hentries, hshadow, ?_⟩
    cases r with
    | none => exact oneLoad_free d hloads
    | some x =>
      obtain ⟨y, hy, hc, -⟩ := hr x rfl
      exact oneLoad_setLoad hloads (.inl ⟨y, hy, hc⟩)
  all_goals exact ⟨hentries, hshadow, hloads⟩

theorem act_tables (h : Act token s t) (hs : TablesBounded s) : TablesBounded t := by
  cases h
  case work h =>
    obtain ⟨hentries, hshadow, hloads⟩ := hs
    cases h
    case fade h => exact fade_tables h ⟨hentries, hshadow, hloads⟩
    case bank => exact tables_congr (by simp) (by simp) (by simp) ⟨hentries, hshadow, hloads⟩
    case load d r hd hc => exact ⟨hentries, hshadow, oneLoad_setLoad hloads hc⟩
    case entry e hr hd => exact ⟨makeEntry_bounded hentries hr, hshadow, hloads⟩
    case drop p => exact ⟨EntriesBounded.filter hentries p, hshadow, hloads⟩
    case forget p => exact ⟨hentries, ShadowBounded.sublist hshadow List.filter_sublist, hloads⟩
    case learn e => exact ⟨hentries, shadowInsert_bounded hshadow e, hloads⟩
    all_goals exact ⟨hentries, hshadow, hloads⟩
  case port | forward | reply => exact tables_congr (setPort_outstanding _ _ _) (setPort_shadow _ _ _) (setPort_loads _ _ _) hs
  case notice => exact tables_congr (by simp) (by simp) (by simp) hs
  case link => exact tables_congr (by simp) (by simp) (by simp) hs
  case pin => exact hs

theorem reset_tables (s : State) (high : Bool) : TablesBounded (resetPart s high) := by
  refine ⟨⟨Nat.zero_le _, List.nodup_nil⟩, ⟨Nat.zero_le _, List.nodup_nil⟩, fun d e r q hr => ?_⟩
  simp [resetPart, State.reset] at hr

/-- Settles O56: each table grows only where there is room and no entry of the key. -/
theorem tablesStayBounded : Obligations.TablesStayBounded := fun _ _ hs h =>
  step_keeps (P := TablesBounded) (fun _ _ h => h)
    (fun _ n h => elapse_keeps (fun _ _ h => h) (fun _ _ => fade_tables)
      (fun u _ h => act_tables (token := none) (.notice u) h) n h)
    (fun _ _ _ => act_tables) (fun s high _ => reset_tables s high) (fun _ _ _ _ _ _ _ _ h => h) hs h

end Sys2Proof.Proofs.Invariants
end

section
/-! Time: no deadline is passed over (O59), quiet time moves the clock alone (O3), and the records stay in order (O60). -/

namespace Sys2Proof.Proofs.Time

open Sys2Proof Sys2Proof.Machine Sys2Proof.Claims Sys2Proof.Laws Sys2Proof.Proofs.Changes Sys2Proof.Proofs.Invariants

variable {token : Option (BitVec 64)} {s t u : State} {limit : Nat}

/-! ### The deadlines a state holds -/

theorem windowDeadline_eq_some {i : Fin 16} {d : Nat} :
    windowDeadline s i = some d ↔ ∃ g, s.guards[i] = some g ∧ g.state = .window d := by
  unfold windowDeadline guardOf
  rcases s.guards[i] with _ | ⟨_ | x | _, c, h, a⟩ <;> simp

/-- No deadline lies before an instant exactly when none of the list does. -/
theorem noneBefore_iff : NoneBefore s limit ↔ ∀ x ∈ deadlines s, limit ≤ x.1 := by
  simp only [deadlines, List.mem_append, or_imp, forall_and, List.mem_filterMap, List.mem_map, Option.mem_toList,
    Option.map_eq_some_iff, and_assoc]
  refine and_congr ?_ (and_congr ?_ (and_congr ?_ (and_congr ?_ (and_congr ?_ (and_congr ?_ ?_)))))
  · exact ⟨fun h x ⟨a, ha, hx⟩ => hx ▸ h a ha, fun h t ht => h _ ⟨t, ht, rfl⟩⟩
  · constructor
    · rintro h x ⟨i, -, d, hd, rfl⟩
      obtain ⟨g, hg, hw⟩ := windowDeadline_eq_some.mp hd
      exact h i g d hg hw
    · exact fun h i g d hg hw => h _ ⟨i, List.mem_finRange i, d, windowDeadline_eq_some.mpr ⟨g, hg, hw⟩, rfl⟩
  · exact ⟨fun h x ⟨a, ha, hx⟩ => hx ▸ h a ha, fun h t ht => h _ ⟨t, ht, rfl⟩⟩
  · exact ⟨fun h x ⟨a, ha, hx⟩ => hx ▸ h a ha, fun h e he => h _ ⟨e, he, rfl⟩⟩
  · exact ⟨fun h x ⟨d, _, r, hr, hx⟩ => hx ▸ h d r hr, fun h d r hr => h _ ⟨d, List.mem_finRange d, r, hr, rfl⟩⟩
  · exact ⟨fun h x ⟨a, ha, hx⟩ => hx ▸ h a ha, fun h t ht => h _ ⟨t, ht, rfl⟩⟩
  · exact ⟨fun h x ⟨a, ha, hx⟩ => hx ▸ h a ha, fun h t ht => h _ ⟨t, ht, rfl⟩⟩

theorem noneBefore_of_earliest {x : Nat × Timer} (h : earliest (deadlines s) = some x) : NoneBefore s x.1 :=
  noneBefore_iff.mpr (earliest_spec h).2

theorem noneBefore_of_no_deadline (h : earliest (deadlines s) = none) : NoneBefore s limit :=
  noneBefore_iff.mpr (by simp [(earliest_none_iff _).mp h])

theorem noneBefore_mono {k : Nat} (h : NoneBefore s limit) (hk : k ≤ limit) : NoneBefore s k :=
  noneBefore_iff.mpr fun x hx => hk.trans (noneBefore_iff.mp h x hx)

theorem setGuard_get (s : State) (i j : Fin 16) (g : Option SlotGuard) :
    (s.setGuard i g).guards[j] = if i = j then g else s.guards[j] := by
  simp [State.setGuard, Vector.getElem_set, Fin.ext_iff]

/-- The fields a deadline stands in: a state that agrees on them has the same deadlines ahead. -/
theorem noneBefore_congr (hp : t.permitPeriod = s.permitPeriod) (hg : t.guards = s.guards)
    (hi : t.intervalNext = s.intervalNext) (ho : t.outstanding = s.outstanding) (hl : t.loads = s.loads)
    (hk : t.lockoutEnd = s.lockoutEnd) (hs : t.save = s.save) : NoneBefore t limit ↔ NoneBefore s limit := by
  simp only [NoneBefore, hp, hg, hi, ho, hl, hk, hs]

theorem noneBefore_record {e : EventRecord} : NoneBefore (s.record e) limit ↔ NoneBefore s limit :=
  noneBefore_congr (by simp) (by simp) (by simp) (by simp) (by simp) (by simp) (by simp)

theorem noneBefore_noticeAfter : NoneBefore (noticeAfter u s) limit ↔ NoneBefore s limit :=
  noneBefore_congr (by simp) (by simp) (by simp) (by simp) (by simp) (by simp) (by simp)

theorem noneBefore_setPort {p : Port} {ps : PortState} : NoneBefore (s.setPort p ps) limit ↔ NoneBefore s limit :=
  noneBefore_congr (by simp) (by simp) (by simp) (by simp) (by simp) (by simp) (by simp)

theorem noneBefore_filter (p : Outstanding → Bool) (h : NoneBefore s limit) :
    NoneBefore { s with outstanding := s.outstanding.filter p } limit := by
  obtain ⟨hp, hg, hi, ho, hl, hk, hs⟩ := h
  exact ⟨hp, hg, hi, fun e he => ho e (List.mem_filter.mp he).1, hl, hk, hs⟩

theorem noneBefore_setGuard {i : Fin 16} {g : Option SlotGuard} (h : NoneBefore s limit)
    (hnew : ∀ x d, g = some x → x.state = .window d → limit ≤ d) : NoneBefore (s.setGuard i g) limit := by
  obtain ⟨hp, hg, hi, ho, hl, hk, hs⟩ := h
  refine ⟨hp, fun j x d hx hw => ?_, hi, ho, hl, hk, hs⟩
  rw [setGuard_get] at hx
  split at hx
  · exact hnew x d hx hw
  · exact hg j x d hx hw

theorem noneBefore_setLoad {d : Fin 4} {r : Option Download} (h : NoneBefore s limit)
    (hnew : ∀ x, r = some x → limit ≤ x.idleDeadline) : NoneBefore (s.setLoad d r) limit := by
  obtain ⟨hp, hg, hi, ho, hl, hk, hs⟩ := h
  refine ⟨hp, hg, hi, ho, fun e x hx => ?_, hk, hs⟩
  rw [setLoad_get] at hx
  split at hx
  · exact hnew x hx
  · exact hl e x hx

/-- What fades brings no deadline nearer. -/
theorem fade_noneBefore (h : Fade s t) (hs : NoneBefore s limit) : NoneBefore t limit := by
  cases h
  case record => exact noneBefore_record.mpr hs
  case timeout => exact noneBefore_record.mpr (noneBefore_filter _ hs)
  case guard i g hg =>
    refine noneBefore_setGuard hs fun x d hx hw => ?_
    obtain ⟨y, hy, hyw⟩ := hg x d hx hw
    exact hs.2.1 i y d hy hyw
  case load d r hr =>
    refine noneBefore_setLoad hs fun x hx => ?_
    obtain ⟨y, hy, -, hidle⟩ := hr x hx
    exact hidle ▸ hs.2.2.2.2.1 d y hy
  case alert => exact hs
  case permit =>
    obtain ⟨-, hrest⟩ := hs
    exact ⟨fun t ht => (by cases ht), hrest⟩
  case interval x hx _ =>
    obtain ⟨hp, hg, hi, hrest⟩ := hs
    refine ⟨hp, hg, fun y hy => ?_, hrest⟩
    cases hy
    exact (hi x hx).trans (Nat.le_add_right _ _)
  case lockout =>
    obtain ⟨hp, hg, hi, ho, hl, -, hsave⟩ := hs
    exact ⟨hp, hg, hi, ho, hl, fun t ht => (by cases ht), hsave⟩
  case save =>
    obtain ⟨hp, hg, hi, ho, hl, hk, -⟩ := hs
    exact ⟨hp, hg, hi, ho, hl, hk, fun r hr => by cases hr⟩

theorem fade_unique (h : Fade s t) (hs : EntriesUnique s) : EntriesUnique t := by
  cases h
  case record => simpa [EntriesUnique] using hs
  case timeout => simpa [EntriesUnique, removeEntry] using hs.sublist (List.filter_sublist.map _)
  all_goals exact hs

theorem expiry_unique (timer : Timer) (hs : EntriesUnique s) : EntriesUnique (expiry timer s) :=
  run_keeps (P := EntriesUnique) (fun _ _ => fade_unique) (expiry_fades timer s) hs

theorem expire_unique (timer : Timer) (hs : EntriesUnique s) : EntriesUnique (expire timer s) := by
  rw [expire_eq]
  simpa [EntriesUnique] using expiry_unique timer hs

/-! ### How many expiries time can take

Each expiry takes one deadline away, or renews that of the interval timer; the sum falls with each. -/

/-- The expiries that can be taken before an instant: the deadlines held, and the milliseconds left to the interval timer. -/
def expiriesLeft (limit : Nat) (s : State) : Nat :=
  s.permitPeriod.toList.length + (allSlots.countP fun i => (windowDeadline s i).isSome) + s.outstanding.length +
    (allLoads.countP fun d => s.loads[d].isSome) + s.lockoutEnd.toList.length + s.save.toList.length +
    (s.intervalNext.toList.map fun t => limit - t).sum

theorem toList_length_le_one {α : Type} (o : Option α) : o.toList.length ≤ 1 := by cases o <;> simp

theorem expiriesLeft_le (limit : Nat) (s : State) : expiriesLeft limit s ≤ limit + s.outstanding.length + 23 := by
  have hw : (allSlots.countP fun i => (windowDeadline s i).isSome) ≤ 16 :=
    List.countP_le_length.trans (by simp [allSlots])
  have hl : (allLoads.countP fun d => s.loads[d].isSome) ≤ 4 := List.countP_le_length.trans (by simp [allLoads])
  have hi : (s.intervalNext.toList.map fun t => limit - t).sum ≤ limit := by cases s.intervalNext <;> simp
  have hp := toList_length_le_one s.permitPeriod
  have hk := toList_length_le_one s.lockoutEnd
  have hs := toList_length_le_one s.save
  unfold expiriesLeft
  omega

/-- A state that agrees on the deadlines' fields has as many expiries left. -/
theorem expiriesLeft_congr (hp : t.permitPeriod = s.permitPeriod) (hg : t.guards = s.guards)
    (hi : t.intervalNext = s.intervalNext) (ho : t.outstanding = s.outstanding) (hl : t.loads = s.loads)
    (hk : t.lockoutEnd = s.lockoutEnd) (hs : t.save = s.save) : expiriesLeft limit t = expiriesLeft limit s := by
  simp only [expiriesLeft, windowDeadline, guardOf, hp, hg, hi, ho, hl, hk, hs]

theorem expiriesLeft_record (e : EventRecord) : expiriesLeft limit (s.record e) = expiriesLeft limit s :=
  expiriesLeft_congr (by simp) (by simp) (by simp) (by simp) (by simp) (by simp) (by simp)

/-- A count over slots does not grow when none begins to satisfy it, and falls when one ceases to. -/
theorem countP_le_of_imp {α : Type} {l : List α} {p q : α → Bool} (h : ∀ x, q x = true → p x = true) :
    l.countP q ≤ l.countP p := List.countP_mono_left fun x _ => h x

theorem countP_lt_of_imp {α : Type} {l : List α} {p q : α → Bool} (h : ∀ x, q x = true → p x = true) {x : α}
    (hx : x ∈ l) (hp : p x = true) (hq : q x = false) : l.countP q < l.countP p := by
  induction l with
  | nil => cases hx
  | cons y rest ih =>
    rw [List.countP_cons, List.countP_cons]
    have hle : rest.countP q ≤ rest.countP p := countP_le_of_imp h
    have hy : (if q y = true then 1 else 0) ≤ if p y = true then 1 else 0 := by
      split
      · next hqy => rw [if_pos (h y hqy)]
      · exact Nat.zero_le _
    rcases List.mem_cons.mp hx with rfl | hmem
    · rw [if_pos hp, if_neg (by simp [hq])]
      omega
    · have := ih hmem
      omega

theorem windowDeadline_isSome {i : Fin 16} :
    (windowDeadline s i).isSome = true ↔ ∃ d g, s.guards[i] = some g ∧ g.state = .window d := by
  rw [Option.isSome_iff_exists]
  exact exists_congr fun d => windowDeadline_eq_some

theorem windows_le {i : Fin 16} {g : Option SlotGuard}
    (h : ∀ x d, g = some x → x.state = .window d → ∃ y, s.guards[i] = some y ∧ y.state = .window d) (j : Fin 16)
    (hj : (windowDeadline (s.setGuard i g) j).isSome = true) : (windowDeadline s j).isSome = true := by
  rw [windowDeadline_isSome] at hj ⊢
  obtain ⟨d, x, hx, hw⟩ := hj
  rw [setGuard_get] at hx
  split at hx
  · next he =>
    subst he
    obtain ⟨y, hy, hyw⟩ := h x d hx hw
    exact ⟨d, y, hy, hyw⟩
  · exact ⟨d, x, hx, hw⟩

theorem loads_le {d : Fin 4} {r : Option Download} (h : r.isSome = true → s.loads[d].isSome = true) (e : Fin 4)
    (he : (s.setLoad d r).loads[e].isSome = true) : s.loads[e].isSome = true := by
  rw [setLoad_get] at he
  split at he
  · next hd => exact hd ▸ h he
  · exact he

theorem fade_expiriesLeft (h : Fade s t) : expiriesLeft limit t ≤ expiriesLeft limit s := by
  cases h
  case record e _ => exact (expiriesLeft_record e).le
  case timeout slot tag _ _ _ r _ =>
    rw [expiriesLeft_record]
    have hle : (removeEntry s slot tag).outstanding.length ≤ s.outstanding.length := List.length_filter_le _ _
    simp only [expiriesLeft, removeEntry, windowDeadline, guardOf] at hle ⊢
    omega
  case guard i g hg =>
    have hle := countP_le_of_imp (l := allSlots) (windows_le hg)
    simp only [expiriesLeft] at hle ⊢
    exact Nat.add_le_add_right (Nat.add_le_add_right (Nat.add_le_add_right (Nat.add_le_add_right
      (Nat.add_le_add_right (Nat.add_le_add_left hle _) _) _) _) _) _
  case load d r hr =>
    have hle : (allLoads.countP fun e => (s.setLoad d r).loads[e].isSome) ≤ allLoads.countP fun e => s.loads[e].isSome :=
      countP_le_of_imp (loads_le fun hsome => by
        obtain ⟨x, hx⟩ := Option.isSome_iff_exists.mp hsome
        obtain ⟨y, hy, -⟩ := hr x hx
        simp [hy])
    simp only [expiriesLeft, windowDeadline, guardOf] at hle ⊢
    exact Nat.add_le_add_right (Nat.add_le_add_right (Nat.add_le_add_right (Nat.add_le_add_left hle _) _) _) _
  case alert => exact le_refl _
  case permit =>
    simp only [expiriesLeft, windowDeadline, guardOf, Option.toList_none, List.length_nil]
    omega
  case interval x hx _ =>
    simp only [expiriesLeft, windowDeadline, guardOf, hx, Option.toList_some, List.map_cons, List.map_nil, List.sum_cons,
      List.sum_nil]
    omega
  case lockout =>
    simp only [expiriesLeft, windowDeadline, guardOf, Option.toList_none, List.length_nil]
    omega
  case save =>
    simp only [expiriesLeft, windowDeadline, guardOf, Option.toList_none, List.length_nil]
    omega

theorem fades_expiriesLeft (h : Fades s t) : expiriesLeft limit t ≤ expiriesLeft limit s :=
  run_keeps (P := fun u => expiriesLeft limit u ≤ expiriesLeft limit s) (fun _ _ h hu => (fade_expiriesLeft h).trans hu)
    h le_rfl


/-- An entry of a table whose keys are unique is the one found by its key (R73). -/
theorem findEntry_of_mem (hu : EntriesUnique s) {e : Outstanding} (he : e ∈ s.outstanding) :
    findEntry s e.slot e.tag = some e := by
  unfold findEntry
  unfold EntriesUnique at hu
  generalize s.outstanding = l at hu he
  induction l with
  | nil => cases he
  | cons x rest ih =>
    rw [List.map_cons, List.nodup_cons] at hu
    rw [List.find?_cons]
    rcases List.mem_cons.mp he with rfl | hrest
    · simp [hasKey]
    · have hx : hasKey e.slot e.tag x = false := by
        by_contra hk
        simp only [hasKey, Bool.not_eq_false, Bool.and_eq_true, beq_iff_eq] at hk
        exact hu.1 (List.mem_map.mpr ⟨e, hrest, by rw [hk.1, hk.2]⟩)
      rw [hx]
      exact ih hu.2 hrest

/-- What a deadline stands for: each timer's own. -/
theorem deadline_of_mem {at' : Nat} {timer : Timer} (h : (at', timer) ∈ deadlines s) :
    match timer with
    | .permit => s.permitPeriod = some at'
    | .window i => ∃ g, s.guards[i] = some g ∧ g.state = .window at'
    | .interval => s.intervalNext = some at'
    | .response slot tag => ∃ e ∈ s.outstanding, e.slot = slot ∧ e.tag = tag ∧ e.deadline = at'
    | .idle d => ∃ r, s.loads[d] = some r ∧ r.idleDeadline = at'
    | .lockout => s.lockoutEnd = some at'
    | .save => ∃ r, s.save = some r ∧ r.limit = at' := by
  simp only [deadlines, List.mem_append, List.mem_filterMap, List.mem_map, Option.mem_toList, Option.map_eq_some_iff,
    Prod.mk.injEq] at h
  rcases h with (((((⟨x, hx, rfl, rfl⟩ | ⟨i, -, d, hd, rfl, rfl⟩) | ⟨x, hx, rfl, rfl⟩) | ⟨e, he, rfl, rfl⟩) |
    ⟨d, -, r, hr, rfl, rfl⟩) | ⟨x, hx, rfl, rfl⟩) | ⟨r, hr, rfl, rfl⟩
  · exact hx
  · exact windowDeadline_eq_some.mp hd
  · exact hx
  · exact ⟨e, he, rfl, rfl, rfl⟩
  · exact ⟨r, hr, rfl⟩
  · exact hx
  · exact ⟨r, hr, rfl⟩

/-- A window closed takes its deadline away. -/
theorem closeWindow_expiriesLeft {i : Fin 16} {g : SlotGuard} {d : Nat} (hg : s.guards[i] = some g)
    (hw : g.state = .window d) (reason : Reason) (source : Option MacAddress) :
    expiriesLeft limit (closeWindow s i reason source) < expiriesLeft limit s := by
  have hin : inWindow s i = true := by simp [inWindow, guardOf, hg, hw]
  have hnormal : expiriesLeft limit (withGuardState s i .normal) < expiriesLeft limit s := by
    unfold withGuardState
    simp only [hg]
    have hlt : (allSlots.countP fun j => (windowDeadline (s.setGuard i (some { g with state := .normal })) j).isSome) <
        allSlots.countP fun j => (windowDeadline s j).isSome := by
      refine countP_lt_of_imp (windows_le fun x y hx hy => ?_) (List.mem_finRange i)
        (windowDeadline_isSome.mpr ⟨d, g, hg, hw⟩) ?_
      · cases hx
        cases hy
      · rw [Bool.eq_false_iff]
        intro hsome
        obtain ⟨y, x, hx, hy⟩ := windowDeadline_isSome.mp hsome
        rw [setGuard_get, if_pos rfl] at hx
        cases hx
        cases hy
    simp only [expiriesLeft] at hlt ⊢
    exact Nat.add_lt_add_right (Nat.add_lt_add_right (Nat.add_lt_add_right (Nat.add_lt_add_right
      (Nat.add_lt_add_right (Nat.add_lt_add_left hlt _) _) _) _) _) _
  unfold closeWindow
  rw [if_pos hin]
  dsimp only
  split
  · rwa [expiriesLeft_record]
  · refine lt_of_le_of_lt (fades_expiriesLeft (abortForWindow_fades _ _)) ?_
    rwa [expiriesLeft_record]

/-- An expiry whose deadline the clock has reached takes it away, or renews it a second later. -/
theorem expiry_expiriesLeft {at' : Nat} {timer : Timer} (hmem : (at', timer) ∈ deadlines s) (hu : EntriesUnique s)
    (hdue : at' ≤ s.clock) (hlimit : at' < limit) : expiriesLeft limit (expiry timer s) < expiriesLeft limit s := by
  have h := deadline_of_mem hmem
  cases timer with
  | permit =>
    have hp : s.permitPeriod = some at' := h
    have hlt : expiriesLeft limit { s with permit := s.chgPermit, permitPeriod := none } < expiriesLeft limit s := by
      simp only [expiriesLeft, windowDeadline, guardOf, hp, Option.toList_some, Option.toList_none, List.length_nil,
        List.length_singleton]
      omega
    simp only [expiry, permitExpire, hp, if_pos hdue]
    split
    · exact hlt
    · exact lt_of_le_of_lt (fades_expiriesLeft (closeWindows_fades _ _ _ _)) hlt
  | window i =>
    obtain ⟨g, hg, hw⟩ := h
    have hguard : guardOf s i = some (.window at') := by simp [guardOf, hg, hw]
    simp only [expiry, windowExpire, hguard, if_pos hdue]
    exact closeWindow_expiriesLeft hg hw _ _
  | interval =>
    have hi : s.intervalNext = some at' := h
    simp only [expiry, intervalExpire, hi, if_pos hdue]
    have hfold : Fades s ((usedSlots s.activeBank).foldl scoreSlot s) := run_foldl scoreSlot_fades _ s
    have hle := fades_expiriesLeft (limit := limit) hfold
    obtain ⟨g, v, l, o, a, hframe⟩ := scoreSlots_frame s (usedSlots s.activeBank)
    rw [hframe] at hle ⊢
    simp only [expiriesLeft, windowDeadline, guardOf, hi, Option.toList_some, List.map_cons, List.map_nil,
      List.sum_cons, List.sum_nil] at hle ⊢
    omega
  | response slot tag =>
    obtain ⟨e, he, rfl, rfl, rfl⟩ := h
    have hlt : (removeEntry s e.slot e.tag).outstanding.length < s.outstanding.length := by
      refine Nat.lt_of_le_of_ne (List.length_filter_le _ _) fun heq => ?_
      have hkey := List.length_filter_eq_length_iff.mp heq e he
      simp [hasKey] at hkey
    have hgone : expiriesLeft limit ((removeEntry s e.slot e.tag).record (entryRecord .responseTimeout e.deadline e)) <
        expiriesLeft limit s := by
      rw [expiriesLeft_record]
      simp only [expiriesLeft, removeEntry, windowDeadline, guardOf] at hlt ⊢
      omega
    simp only [expiry, responseExpire, findEntry_of_mem hu he, if_pos hdue]
    split
    · exact hgone
    · exact hgone
    · exact lt_of_le_of_lt (fades_expiriesLeft (applyReport_fades _ _ _ _ _)) hgone
    · exact hgone
  | idle d =>
    obtain ⟨r, hr, rfl⟩ := h
    simp only [expiry, idleExpire, hr, if_pos hdue, abortLoad]
    rw [expiriesLeft_record]
    have hlt : (allLoads.countP fun e => (s.setLoad d none).loads[e].isSome) < allLoads.countP fun e => s.loads[e].isSome := by
      refine countP_lt_of_imp (loads_le fun hn => by cases hn) (List.mem_finRange d) (by simp [hr]) ?_
      rw [setLoad_get, if_pos rfl]
      rfl
    simp only [expiriesLeft, windowDeadline, guardOf] at hlt ⊢
    exact Nat.add_lt_add_right (Nat.add_lt_add_right (Nat.add_lt_add_right (Nat.add_lt_add_left hlt _) _) _) _
  | lockout =>
    have hk : s.lockoutEnd = some at' := h
    simp only [expiry, lockoutExpire, hk, if_pos hdue, expiriesLeft, windowDeadline, guardOf, Option.toList_some,
      Option.toList_none, List.length_nil, List.length_singleton]
    omega
  | save =>
    obtain ⟨r, hr, rfl⟩ := h
    simp only [expiry, saveExpire, hr, if_pos hdue]
    obtain ⟨l, o, hframe⟩ := record_frame s (saveRecord s .saveFailed r)
    rw [hframe]
    simp only [expiriesLeft, windowDeadline, guardOf, hr, Option.toList_some, Option.toList_none, List.length_nil,
      List.length_singleton]
    omega

/-! ### The passing of time -/

/-- The state in which the earliest deadline is taken: the clock stands at it. -/
theorem ahead_at_earliest {x : Nat × Timer} (h : earliest (deadlines s) = some x) (hs : DeadlinesAhead s) :
    max s.clock x.1 = x.1 ∧ DeadlinesAhead { s with clock := x.1 } := by
  have hle : s.clock ≤ x.1 := noneBefore_iff.mp hs.1 x (earliest_spec h).1
  exact ⟨max_eq_right hle, noneBefore_of_earliest h, hs.2⟩

/-- What the taking of the earliest deadline does to the count of expiries left. -/
theorem expire_expiriesLeft {x : Nat × Timer} (h : earliest (deadlines s) = some x) (hu : EntriesUnique s)
    (hlimit : x.1 < limit) :
    expiriesLeft limit (expire x.2 { s with clock := max s.clock x.1 }) < expiriesLeft limit s := by
  rw [expire_eq]
  rw [expiriesLeft_congr (s := expiry x.2 { s with clock := max s.clock x.1 }) (by simp) (by simp) (by simp) (by simp)
    (by simp) (by simp) (by simp)]
  have hmem : x ∈ deadlines { s with clock := max s.clock x.1 } := (earliest_spec h).1
  exact expiry_expiriesLeft (s := { s with clock := max s.clock x.1 }) hmem hu (le_max_right _ _) hlimit

theorem takeDeadlines_succ_of_earliest {x : Nat × Timer} (h : earliest (deadlines s) = some x) (n : Nat) :
    takeDeadlines limit (n + 1) s =
      if x.1 < limit then takeDeadlines limit n (expire x.2 { s with clock := max s.clock x.1 }) else s := by
  rw [takeDeadlines, h]

theorem takeDeadlines_of_noneBefore (h : NoneBefore s limit) (n : Nat) : takeDeadlines limit n s = s := by
  cases n with
  | zero => rfl
  | succ n =>
    cases he : earliest (deadlines s) with
    | none => rw [takeDeadlines, he]
    | some x =>
      rw [takeDeadlines_succ_of_earliest he,
        if_neg (Nat.not_lt.mpr (noneBefore_iff.mp h x (earliest_spec he).1))]

/-- With enough fuel every deadline before the limit is taken, and what is kept by taking one is kept. -/
theorem takeDeadlines_spec {P : State → Prop}
    (hP : ∀ u x, earliest (deadlines u) = some x → x.1 < limit → P u →
      P (expire x.2 { u with clock := max u.clock x.1 }))
    (n : Nat) (s : State) (hu : EntriesUnique s) (hn : expiriesLeft limit s ≤ n) (hs : P s) :
    NoneBefore (takeDeadlines limit n s) limit ∧ EntriesUnique (takeDeadlines limit n s) ∧
      P (takeDeadlines limit n s) := by
  induction n generalizing s with
  | zero =>
    refine ⟨noneBefore_iff.mpr fun y hy => ?_, hu, hs⟩
    by_contra hlt
    have hdrop := expiry_expiriesLeft (s := { s with clock := max s.clock y.1 }) (limit := limit) hy hu
      (le_max_right _ _) (Nat.not_le.mp hlt)
    have hsame : expiriesLeft limit { s with clock := max s.clock y.1 } = expiriesLeft limit s := rfl
    omega
  | succ n ih =>
    cases he : earliest (deadlines s) with
    | none =>
      rw [takeDeadlines, he]
      exact ⟨noneBefore_of_no_deadline he, hu, hs⟩
    | some x =>
      rw [takeDeadlines_succ_of_earliest he]
      split
      · next hlt =>
        have hdrop := expire_expiriesLeft he hu hlt
        exact ih _ (expire_unique _ (s := { s with clock := max s.clock x.1 }) hu) (by omega) (hP s x he hlt hs)
      · next hge => exact ⟨noneBefore_mono (noneBefore_of_earliest he) (Nat.not_lt.mp hge), hu, hs⟩

/-- Beyond enough, the fuel does not matter. -/
theorem takeDeadlines_fuel (n m : Nat) (s : State) (hu : EntriesUnique s) (hn : expiriesLeft limit s ≤ n)
    (hm : expiriesLeft limit s ≤ m) : takeDeadlines limit n s = takeDeadlines limit m s := by
  induction n generalizing m s with
  | zero =>
    have hnone : NoneBefore s limit :=
      (takeDeadlines_spec (P := fun _ => True) (fun _ _ _ _ h => h) 0 s hu hn trivial).1
    rw [takeDeadlines_of_noneBefore hnone, takeDeadlines_of_noneBefore hnone]
  | succ n ih =>
    cases he : earliest (deadlines s) with
    | none =>
      rw [takeDeadlines_of_noneBefore (noneBefore_of_no_deadline he),
        takeDeadlines_of_noneBefore (noneBefore_of_no_deadline he)]
    | some x =>
      by_cases hlt : x.1 < limit
      · have hdrop := expire_expiriesLeft he hu hlt
        cases m with
        | zero => omega
        | succ m =>
          rw [takeDeadlines_succ_of_earliest he, takeDeadlines_succ_of_earliest he, if_pos hlt, if_pos hlt]
          exact ih m _ (expire_unique _ (s := { s with clock := max s.clock x.1 }) hu) (by omega) (by omega)
      · have hnone : NoneBefore s limit := noneBefore_mono (noneBefore_of_earliest he) (Nat.not_lt.mp hlt)
        rw [takeDeadlines_of_noneBefore hnone, takeDeadlines_of_noneBefore hnone]

theorem elapse_of_noneBefore (hr : s.resetN = true) {n : Nat} (h : NoneBefore s (s.clock + n)) :
    s.elapse n = { s with clock := s.clock + n } := by
  unfold State.elapse
  rw [if_pos hr]
  dsimp only
  rw [takeDeadlines_of_noneBefore h]

theorem elapse_of_reset (hr : s.resetN = false) (n : Nat) : s.elapse n = s := by
  simp [State.elapse, hr]

/-- Settles O3: with no deadline before the new instant none is taken; in reset time does nothing. -/
theorem quietTimeMovesTheClockAlone : Obligations.QuietTimeMovesTheClockAlone :=
  fun _ n => ⟨fun hr h => elapse_of_noneBefore hr h, fun hr => elapse_of_reset hr n⟩

/-- After time has passed no deadline is behind, and what is kept by the taking of a deadline and the quiet passing of time
is kept. -/
theorem elapse_spec {P : State → Prop} (hs : DeadlinesAhead s) (n : Nat) (hP : P s)
    (hx : ∀ u x, earliest (deadlines u) = some x → DeadlinesAhead u → P u →
      P (expire x.2 { u with clock := x.1 }) ∧ DeadlinesAhead (expire x.2 { u with clock := x.1 }))
    (hc : ∀ u c, u.clock ≤ c → P u → P { u with clock := c }) : P (s.elapse n) ∧ DeadlinesAhead (s.elapse n) := by
  unfold State.elapse
  split
  · have hfuel := expiriesLeft_le (s.clock + n) s
    obtain ⟨hnone, hunique, ⟨hkept, hahead⟩, hclock⟩ := takeDeadlines_spec
      (P := fun u => (P u ∧ DeadlinesAhead u) ∧ u.clock ≤ s.clock + n) (fun u x he hlt ⟨⟨hu, ha⟩, hcl⟩ => by
        rw [(ahead_at_earliest he ha).1]
        refine ⟨hx u x he ha hu, ?_⟩
        obtain ⟨_, _, _, _, _, _, _, _, _, _, _, _, _, _, _, _, hframe⟩ := expire_frame x.2 { u with clock := x.1 }
        rw [hframe]
        exact hlt.le)
      (s.clock + n + s.outstanding.length + 24) s hs.2 (by omega) ⟨⟨hP, hs⟩, Nat.le_add_right _ _⟩
    exact ⟨hc _ _ hclock hkept, hnone, hunique⟩
  · exact ⟨hP, hs⟩

/-! ### No deadline is passed over -/

/-- What leaves the deadlines and the clock leaves them ahead. -/
theorem ahead_congr (hc : t.clock = s.clock) (hp : t.permitPeriod = s.permitPeriod) (hg : t.guards = s.guards)
    (hi : t.intervalNext = s.intervalNext) (ho : t.outstanding = s.outstanding) (hl : t.loads = s.loads)
    (hk : t.lockoutEnd = s.lockoutEnd) (hsv : t.save = s.save) (hs : DeadlinesAhead s) : DeadlinesAhead t := by
  refine ⟨?_, by simpa [EntriesUnique, ho] using hs.2⟩
  rw [hc, noneBefore_congr hp hg hi ho hl hk hsv]
  exact hs.1

theorem fade_ahead (h : Fade s t) (hs : DeadlinesAhead s) : DeadlinesAhead t := by
  refine ⟨?_, fade_unique h hs.2⟩
  rw [h.sameOutside.clock]
  exact fade_noneBefore h hs.1

theorem notice_ahead (v : State) (hs : DeadlinesAhead s) : DeadlinesAhead (noticeAfter v s) :=
  ahead_congr (by simp) (by simp) (by simp) (by simp) (by simp) (by simp) (by simp) (by simp) hs

theorem expire_ahead (timer : Timer) (hs : DeadlinesAhead s) : DeadlinesAhead (expire timer s) := by
  rw [expire_eq]
  exact notice_ahead s (run_keeps (P := DeadlinesAhead) (fun _ _ => fade_ahead) (expiry_fades timer s) hs)

theorem work_ahead (h : Work token s t) (hs : DeadlinesAhead s) : DeadlinesAhead t := by
  obtain ⟨hnone, hunique⟩ := hs
  cases h
  case fade h => exact fade_ahead h ⟨hnone, hunique⟩
  case window i x hx =>
    refine ⟨noneBefore_setGuard hnone fun y d hy hw => ?_, hunique⟩
    cases hy
    exact hx d hw
  case load d r hd hc =>
    refine ⟨noneBefore_setLoad hnone fun y hy => ?_, hunique⟩
    cases hy
    exact hd
  case entry e hr hd =>
    obtain ⟨hp, hg, hi, ho, hl, hk, hsave⟩ := hnone
    refine ⟨⟨hp, hg, hi, fun x hx => ?_, hl, hk, hsave⟩, ?_⟩
    · rcases List.mem_append.mp hx with hx | hx
      · exact ho x (List.mem_filter.mp hx).1
      · rw [List.mem_singleton.mp hx]
        exact hd
    · refine nodup_map_append_singleton (hunique.sublist (List.filter_sublist.map _)) fun x hx hkey => ?_
      obtain ⟨hslot, htag⟩ := Prod.mk.inj hkey
      simpa [hasKey, hslot, htag] using (List.mem_filter.mp hx).2
  case drop p => exact ⟨noneBefore_filter p hnone, hunique.sublist (List.filter_sublist.map _)⟩
  case lockout =>
    obtain ⟨hp, hg, hi, ho, hl, -, hsave⟩ := hnone
    refine ⟨⟨hp, hg, hi, ho, hl, fun x hx => ?_, hsave⟩, hunique⟩
    cases hx
    exact Nat.le_add_right _ _
  case bank =>
    exact ahead_congr (by simp) (by simp) (by simp) (by simp) (by simp) (by simp) (by simp) (by simp) ⟨hnone, hunique⟩
  case save r hr m hm =>
    obtain ⟨hp, hg, hi, ho, hl, hk, -⟩ := hnone
    refine ⟨⟨hp, hg, hi, ho, hl, hk, fun x hx => ?_⟩, hunique⟩
    cases hx
    exact hr
  all_goals exact ⟨hnone, hunique⟩

theorem act_ahead (h : Act token s t) (hs : DeadlinesAhead s) : DeadlinesAhead t := by
  cases h
  case work h => exact work_ahead h hs
  case port p ps _ _ =>
    exact ahead_congr (by simp) (by simp) (by simp) (by simp) (by simp) (by simp) (by simp) (by simp) hs
  case forward | reply =>
    exact ahead_congr (setPort_clock _ _ _) (setPort_permitPeriod _ _ _) (setPort_guards _ _ _)
      (setPort_intervalNext _ _ _) (setPort_outstanding _ _ _) (setPort_loads _ _ _) (setPort_lockoutEnd _ _ _)
      (setPort_save _ _ _) hs
  case notice u => exact notice_ahead u hs
  case link => exact ahead_congr (by simp) (by simp) (by simp) (by simp) (by simp) (by simp) (by simp) (by simp) hs
  case pin high p hp =>
    obtain ⟨⟨-, hrest⟩, hunique⟩ := hs
    exact ⟨⟨hp, hrest⟩, hunique⟩

theorem reset_ahead (s : State) (high : Bool) : DeadlinesAhead (resetPart s high) := by
  refine ⟨⟨fun _ _ => Nat.zero_le _, fun i g d hg _ => ?_, fun _ h => ?_, fun e he => ?_, fun d r hr => ?_,
    fun _ h => ?_, fun _ h => ?_⟩, List.nodup_nil⟩
  · simp [resetPart, State.reset] at hg
  · cases h
  · cases he
  · simp [resetPart, State.reset] at hr
  · cases h
  · cases h

theorem installStart_ahead {station : MacAddress} {outcome : StartOutcome} {w : Settings} {b : Bank}
    (hs : DeadlinesAhead s) : DeadlinesAhead (installStart s station outcome w b) := by
  obtain ⟨⟨hp, -, -, ho, hl, hk, hsave⟩, hunique⟩ := hs
  refine ⟨⟨hp, fun i g d hg hw => ?_, fun x hx => ?_, ho, hl, hk, hsave⟩, hunique⟩
  · have hguard : (startGuards b)[i] = some g := hg
    rw [Guards.startGuards_getElem] at hguard
    split at hguard <;> cases hguard
    cases hw
  · cases hx
    exact Nat.le_add_right _ _

theorem elapse_ahead (n : Nat) (hs : DeadlinesAhead s) : DeadlinesAhead (s.elapse n) :=
  (elapse_spec (P := fun _ => True) hs n trivial
    (fun _ x he ha _ => ⟨trivial, expire_ahead x.2 (ahead_at_earliest he ha).2⟩) fun _ _ _ h => h).2

theorem step_ahead (hs : DeadlinesAhead s) (h : step s = .next t) : DeadlinesAhead t :=
  step_keeps (P := DeadlinesAhead) (fun _ _ h => h) (fun _ n h => elapse_ahead n h) (fun _ _ _ => act_ahead)
    (fun s high _ => reset_ahead s high) (fun _ _ _ _ _ _ _ _ h => installStart_ahead h) hs h

/-- The row of an expiry, at once. -/
theorem exec_expiryRow (timer : Timer) (u : State) :
    exec (expiryRow timer) u = .next (expire timer (u.elapse 0)) := by
  cases timer <;> rfl

/-- Time that goes beyond the earliest deadline takes its expiry and goes on from there. -/
theorem elapse_through {x : Nat × Timer} {n : Nat} (hs : DeadlinesAhead s) (hr : s.resetN = true)
    (he : earliest (deadlines s) = some x) (hlt : x.1 < s.clock + n) :
    s.elapse n = (expire x.2 { s with clock := x.1 }).elapse (s.clock + n - x.1) := by
  obtain ⟨hmax, hahead⟩ := ahead_at_earliest he hs
  obtain ⟨_, _, _, _, _, _, _, _, _, _, _, _, _, _, _, _, hframe⟩ := expire_frame x.2 { s with clock := x.1 }
  have hwclock : (expire x.2 { s with clock := x.1 }).clock = x.1 := by rw [hframe]
  have hwreset : (expire x.2 { s with clock := x.1 }).resetN = true := (expire_resetN _ _).trans hr
  have hdrop := expire_expiriesLeft he hs.2 hlt
  rw [hmax] at hdrop
  have hsfuel := expiriesLeft_le (s.clock + n) s
  have hwfuel := expiriesLeft_le (s.clock + n) (expire x.2 { s with clock := x.1 })
  have hwunique : EntriesUnique (expire x.2 { s with clock := x.1 }) := (expire_ahead x.2 hahead).2
  unfold State.elapse
  rw [if_pos hr, if_pos hwreset]
  dsimp only
  rw [hwclock, show x.1 + (s.clock + n - x.1) = s.clock + n by omega, takeDeadlines_succ_of_earliest he, if_pos hlt, hmax,
    takeDeadlines_fuel (s.clock + n + s.outstanding.length + 23)
      (s.clock + n + (expire x.2 { s with clock := x.1 }).outstanding.length + 24) _ hwunique (by omega) (by omega)]

/-- Settles O59: every step leaves the deadlines ahead of the clock, and time beyond one takes it at its instant. -/
theorem noDeadlineIsPassedOver : Obligations.NoDeadlineIsPassedOver := by
  refine ⟨fun s t hs h => step_ahead hs h, fun s n at' timer hs hr he hlt => ?_⟩
  have hahead : DeadlinesAhead { s with clock := at' } := (ahead_at_earliest he hs).2
  have hquiet : State.elapse { s with clock := at' } 0 = { s with clock := at' } :=
    elapse_of_noneBefore (s := { s with clock := at' }) hr hahead.1
  refine ⟨expire timer { s with clock := at' }, ?_, ?_, elapse_through hs hr he hlt⟩
  · rw [exec_expiryRow, hquiet]
  · obtain ⟨_, _, _, _, _, _, _, _, _, _, _, _, _, _, _, _, hframe⟩ := expire_frame timer { s with clock := at' }
    rw [hframe]

/-! ### The records stay in order -/

/-- A record no earlier than those held, and no later than the clock, keeps the order. -/
theorem record_ordered {e : EventRecord} (he : e.time = s.clock) (hs : EventsOrdered s) : EventsOrdered (s.record e) := by
  rcases record_cases s e with ⟨-, h⟩ | ⟨-, h⟩ <;> rw [h]
  · obtain ⟨hpairs, hclock⟩ := hs
    constructor
    · simp only [List.map_append, List.map_singleton, List.pairwise_append, List.mem_map, List.mem_singleton,
        List.pairwise_singleton]
      refine ⟨hpairs, trivial, ?_⟩
      rintro a ⟨x, hx, rfl⟩ b rfl
      exact he ▸ hclock x hx
    · intro x hx
      rcases List.mem_append.mp hx with hx | hx
      · exact hclock x hx
      · rw [List.mem_singleton.mp hx]
        exact he.le
  · exact hs

/-- What leaves the Event Queue and the clock leaves the order. -/
theorem ordered_congr (hc : t.clock = s.clock) (he : t.events = s.events) (hs : EventsOrdered s) : EventsOrdered t := by
  simpa only [EventsOrdered, hc, he] using hs

theorem fade_ordered (h : Fade s t) (ha : DeadlinesAhead s) (hs : EventsOrdered s) : EventsOrdered t := by
  cases h
  case record e he => exact record_ordered he hs
  case timeout slot tag e hf hd r hr =>
    have hdue : e.deadline = s.clock := le_antisymm hd (ha.1.2.2.2.1 e (List.mem_of_find?_eq_some hf))
    exact record_ordered (s := removeEntry s slot tag) (hr.trans hdue) hs
  all_goals exact hs

theorem act_ordered (h : Act token s t) (ha : DeadlinesAhead s) (hs : EventsOrdered s) : EventsOrdered t := by
  cases h
  case work h =>
    cases h
    case fade h => exact fade_ordered h ha hs
    case fetch n =>
      obtain ⟨hpairs, hclock⟩ := hs
      exact ⟨hpairs.sublist ((List.drop_sublist n _).map _), fun e he => hclock e (List.mem_of_mem_drop he)⟩
    case bank b _ =>
      exact ordered_congr (by simp) (by unfold State.setInactiveBank; split <;> rfl) hs
    all_goals exact hs
  case port p ps _ _ => exact ordered_congr (by simp) (by cases p <;> rfl) hs
  case forward p frame _ => exact ordered_congr (setPort_clock _ _ _) (by cases p <;> rfl) hs
  case reply p r _ => exact ordered_congr (by simp) (by cases p <;> rfl) hs
  case notice => exact ordered_congr (by simp) (by simp) hs
  case link p high => exact ordered_congr (by simp) (by cases p <;> rfl) hs
  case pin => exact hs

/-- Deadlines ahead and records in order: the part of a state that time keeps. -/
def Timely (s : State) : Prop := DeadlinesAhead s ∧ EventsOrdered s

theorem expire_timely (timer : Timer) (hs : Timely s) : Timely (expire timer s) :=
  run_keeps (P := Timely) (fun _ _ h hu => ⟨act_ahead h hu.1, act_ordered h hu.1 hu.2⟩)
    (expire_acts (token := none) timer s) hs

theorem elapse_timely (n : Nat) (hs : Timely s) : Timely (s.elapse n) := by
  refine And.symm (elapse_spec (P := EventsOrdered) hs.1 n hs.2 (fun u x he ha ho => ?_) fun u c hc ho => ?_)
  · have hle : u.clock ≤ x.1 := noneBefore_iff.mp ha.1 x (earliest_spec he).1
    have htimely : Timely { u with clock := x.1 } :=
      ⟨(ahead_at_earliest he ha).2, ho.1, fun e hm => (ho.2 e hm).trans hle⟩
    exact (expire_timely x.2 htimely).symm
  · exact ⟨ho.1, fun e hm => (ho.2 e hm).trans hc⟩

/-- Settles O60: each record is of its instant, a timeout's too, because its Deadline is taken when the clock is there. -/
theorem eventsStayInOrder : Obligations.EventsStayInOrder := fun s t ha ho h =>
  (step_keeps (P := Timely) (s := s) (t := t) (fun _ _ h => h) (fun _ n h => elapse_timely n h)
    (fun _ _ _ h hs => ⟨act_ahead h hs.1, act_ordered h hs.1 hs.2⟩)
    (fun s high _ => ⟨reset_ahead s high, List.Pairwise.nil, fun _ he => by cases he⟩)
    (fun _ _ _ _ _ _ _ _ h => ⟨installStart_ahead h.1, h.2⟩) ⟨ha, ho⟩ h).2

end Sys2Proof.Proofs.Time
end

section
/-! The consistency checks (O58): each test of an entry is the condition R136 to R139 state, chains included; and the active
bank keeps passing them. -/

namespace Sys2Proof.Proofs.Consistency

open Sys2Proof Sys2Proof.Machine Sys2Proof.Claims Sys2Proof.Laws Sys2Proof.Proofs.Changes

variable {b : Bank} {station : MacAddress}

/-! ### Links and walks (R136) -/

theorem isLink_iff {h : BitVec 16} : isLink h = true ↔ LinkLegal h := by
  simp [isLink, LinkLegal, Nat.lt_succ_iff]

theorem ruleIndex_eq_some {h : BitVec 16} {i : Fin 256} : ruleIndex h = some i ↔ h.toNat = i.val := by
  unfold ruleIndex
  split
  · simp [Fin.ext_iff]
  · have := i.isLt
    simp only [reduceCtorEq, false_iff]
    omega

theorem ruleIndex_isSome {h : BitVec 16} : (ruleIndex h).isSome = true ↔ h.toNat ≤ 255 := by
  unfold ruleIndex
  split <;> simp <;> omega

theorem ruleIndex_chainEnd : ruleIndex chainEnd = none := rfl

/-- A legal link that is not END names a rule. -/
theorem ruleIndex_of_legal {h : BitVec 16} (hl : LinkLegal h) (he : h ≠ chainEnd) : ∃ i, ruleIndex h = some i :=
  Option.isSome_iff_exists.mp (ruleIndex_isSome.mpr (hl.resolve_left he))

theorem walkTo_append {l k : List (Fin 256)} {h e : BitVec 16} :
    WalkTo b h (l ++ k) e ↔ ∃ m, WalkTo b h l m ∧ WalkTo b m k e := by
  induction l generalizing h with
  | nil => simp [WalkTo]
  | cons i rest ih => simp [WalkTo, ih, and_assoc]

theorem checkWalk_of_none {n : Nat} {h : BitVec 16} (hi : ruleIndex h = none) :
    checkWalk b (n + 1) h = ([], false) := by
  rw [checkWalk, hi]

theorem checkWalk_of_unused {n : Nat} {h : BitVec 16} {i : Fin 256} (hi : ruleIndex h = some i)
    (hu : isUsed b.rules[i].used = false) : checkWalk b (n + 1) h = ([i], false) := by
  rw [checkWalk, hi]
  dsimp only
  rw [hu]
  rfl

theorem checkWalk_of_used {n : Nat} {h : BitVec 16} {i : Fin 256} (hi : ruleIndex h = some i)
    (hu : isUsed b.rules[i].used = true) :
    checkWalk b (n + 1) h = (i :: (checkWalk b n b.rules[i].next).1, (checkWalk b n b.rules[i].next).2) := by
  rw [checkWalk, hi]
  dsimp only
  rw [hu]
  rfl

/-- The walk of the checks cycles exactly when it passes `n` used rules and names another. -/
theorem checkWalk_cycles (n : Nat) (h : BitVec 16) :
    (checkWalk b n h).2 = true ↔ ∃ l e, l.length = n ∧ WalkTo b h l e ∧ e.toNat ≤ 255 := by
  induction n generalizing h with
  | zero =>
    rw [checkWalk, ruleIndex_isSome]
    constructor
    · exact fun hh => ⟨[], h, rfl, rfl, hh⟩
    · rintro ⟨l, e, hl, hw, he⟩
      obtain rfl := List.length_eq_zero_iff.mp hl
      cases hw
      exact he
  | succ n ih =>
    have hcons : (∃ l e, l.length = n + 1 ∧ WalkTo b h l e ∧ e.toNat ≤ 255) ↔
        ∃ i, ruleIndex h = some i ∧ isUsed b.rules[i].used = true ∧
          ∃ l e, l.length = n ∧ WalkTo b b.rules[i].next l e ∧ e.toNat ≤ 255 := by
      constructor
      · rintro ⟨_ | ⟨i, l⟩, e, hl, hw, he⟩
        · cases hl
        · exact ⟨i, hw.1, hw.2.1, l, e, Nat.succ.inj hl, hw.2.2, he⟩
      · rintro ⟨i, hi, hu, l, e, hl, hw, he⟩
        exact ⟨i :: l, e, by rw [List.length_cons, hl], ⟨hi, hu, hw⟩, he⟩
    rw [hcons]
    cases hi : ruleIndex h with
    | none => simp [checkWalk_of_none hi]
    | some i =>
      by_cases hu : isUsed b.rules[i].used = true
      · simp only [checkWalk_of_used hi hu, ih, Option.some.injEq, exists_eq_left', hu, true_and]
      · simp only [checkWalk_of_unused hi (Bool.eq_false_iff.mpr hu), Bool.false_eq_true, Option.some.injEq,
          exists_eq_left', hu, false_and]

theorem chainCycles_iff {h : BitVec 16} : chainCycles b h = true ↔ Cycles b h := checkWalk_cycles 256 h

/-- The rules the walk of the checks passes: those that fewer than `n` used rules lead to. -/
theorem mem_checkWalk (n : Nat) (h : BitVec 16) (k : Fin 256) :
    k ∈ (checkWalk b n h).1 ↔ ∃ l e, WalkTo b h l e ∧ l.length < n ∧ ruleIndex e = some k := by
  induction n generalizing h with
  | zero => simp [checkWalk]
  | succ n ih =>
    have hcons : (∃ l e, WalkTo b h l e ∧ l.length < n + 1 ∧ ruleIndex e = some k) ↔
        ruleIndex h = some k ∨ ∃ i, ruleIndex h = some i ∧ isUsed b.rules[i].used = true ∧
          ∃ l e, WalkTo b b.rules[i].next l e ∧ l.length < n ∧ ruleIndex e = some k := by
      constructor
      · rintro ⟨_ | ⟨i, l⟩, e, hw, hl, he⟩
        · cases hw
          exact .inl he
        · exact .inr ⟨i, hw.1, hw.2.1, l, e, hw.2.2, Nat.lt_of_succ_lt_succ hl, he⟩
      · rintro (hk | ⟨i, hi, hu, l, e, hw, hl, he⟩)
        · exact ⟨[], h, rfl, Nat.succ_pos n, hk⟩
        · exact ⟨i :: l, e, ⟨hi, hu, hw⟩, Nat.succ_lt_succ hl, he⟩
    rw [hcons]
    cases hi : ruleIndex h with
    | none => simp [checkWalk_of_none hi]
    | some i =>
      have hik : some i = some k ↔ k = i := by rw [Option.some.injEq, eq_comm]
      by_cases hu : isUsed b.rules[i].used = true
      · simp only [checkWalk_of_used hi hu, List.mem_cons, ih, hik, Option.some.injEq, exists_eq_left', hu, true_and]
      · simp only [checkWalk_of_unused hi (Bool.eq_false_iff.mpr hu), List.mem_singleton, hik, Option.some.injEq,
          exists_eq_left', hu, Bool.false_eq_true, false_and, or_false]

theorem mem_chainHeads {h : BitVec 16} : h ∈ chainHeads b ↔ IsHead b h := by
  have hslots : ∀ i : Fin 16, i ∈ usedSlots b ↔ slotUsed b i = true := fun i => by
    simp [usedSlots, allSlots]
  simp only [chainHeads, IsHead, List.mem_cons, List.mem_map, hslots]
  refine or_congr_right (exists_congr fun i => and_congr_right fun _ => eq_comm)

theorem mem_reachedRules {k : Fin 256} : k ∈ reachedRules b ↔ Reached b k := by
  simp only [reachedRules, List.mem_flatMap, mem_chainHeads, mem_checkWalk, Reached]
  constructor
  · rintro ⟨h, hh, l, e, hw, hl, he⟩
    exact ⟨h, l, e, hh, hw, hl, he⟩
  · rintro ⟨h, l, e, hh, hw, hl, he⟩
    exact ⟨h, hh, l, e, hw, hl, he⟩

/-! ### Chains -/

/-- A walk's links lead on in one way alone, so a chain goes through any other walk from its head. -/
theorem chain_through {h e : BitVec 16} {l k : List (Fin 256)} (hc : ChainFrom b h l) (hw : WalkTo b h k e) :
    ∃ rest, l = k ++ rest ∧ ChainFrom b e rest := by
  induction k generalizing h l with
  | nil =>
    cases hw
    exact ⟨l, rfl, hc⟩
  | cons i rest ih =>
    obtain ⟨hi, -, hrest⟩ := hw
    cases l with
    | nil =>
      cases hc
      cases hi
    | cons j tail =>
      obtain ⟨hj, -, htail⟩ := hc
      obtain rfl := Option.some.inj (hj.symm.trans hi)
      obtain ⟨r, rfl, hr⟩ := ih htail hrest
      exact ⟨r, rfl, hr⟩

/-- A chain passes no rule twice: what follows the rule would be as long as a part of itself. -/
theorem chain_nodup {h : BitVec 16} {l : List (Fin 256)} (hc : ChainFrom b h l) : l.Nodup := by
  induction l generalizing h with
  | nil => exact List.nodup_nil
  | cons i rest ih =>
    obtain ⟨-, -, hrest⟩ := hc
    refine List.nodup_cons.mpr ⟨fun hmem => ?_, ih hrest⟩
    obtain ⟨pre, post, rfl⟩ := List.append_of_mem hmem
    obtain ⟨m, -, -, -, hpost⟩ := walkTo_append.mp hrest
    obtain ⟨r, hr, -⟩ := chain_through hpost hrest
    have hlen := congrArg List.length hr
    simp only [List.length_append, List.length_cons] at hlen
    omega

theorem chain_length {h : BitVec 16} {l : List (Fin 256)} (hc : ChainFrom b h l) : l.length ≤ 256 := by
  simpa using (chain_nodup hc).length_le_card

theorem legal_of_chain {h : BitVec 16} {l : List (Fin 256)} (hc : ChainFrom b h l) : LinkLegal h := by
  cases l with
  | nil => exact .inl hc
  | cons i rest => exact .inr (ruleIndex_isSome.mp (by rw [hc.1]; rfl))

theorem not_cycles_of_chain {h : BitVec 16} {l : List (Fin 256)} (hc : ChainFrom b h l) : ¬ Cycles b h := by
  rintro ⟨k, e, hk, hw, he⟩
  obtain ⟨rest, rfl, hrest⟩ := chain_through hc hw
  have hlen := chain_length hc
  cases rest with
  | nil =>
    cases hrest
    exact absurd he (by decide)
  | cons i tail =>
    simp only [List.length_append, List.length_cons] at hlen
    omega

/-- A rule reached from the head of a chain is one of the chain, and a chain follows it. -/
theorem chain_of_reached {h e : BitVec 16} {l k : List (Fin 256)} {i : Fin 256} (hc : ChainFrom b h l)
    (hw : WalkTo b h k e) (he : ruleIndex e = some i) :
    i ∈ l ∧ isUsed b.rules[i].used = true ∧ ∃ rest, ChainFrom b b.rules[i].next rest := by
  obtain ⟨rest, rfl, hrest⟩ := chain_through hc hw
  cases rest with
  | nil =>
    cases hrest
    cases he
  | cons j tail =>
    obtain ⟨hj, hu, htail⟩ := hrest
    obtain rfl := Option.some.inj (hj.symm.trans he)
    exact ⟨by simp, hu, tail, htail⟩

/-- A legal head whose walk does not cycle, over reached rules that are used with legal links, begins a chain. -/
theorem chain_of_legal {h : BitVec 16} (hh : IsHead b h) (hl : LinkLegal h) (hn : ¬ Cycles b h)
    (hr : ∀ k, Reached b k → isUsed b.rules[k].used = true ∧ LinkLegal b.rules[k].next) : ∃ l, ChainFrom b h l := by
  have hwalk : ∀ n ≤ 256, (∃ l, ChainFrom b h l) ∨ ∃ l e, l.length = n ∧ WalkTo b h l e ∧ e.toNat ≤ 255 := by
    intro n
    induction n with
    | zero =>
      rintro -
      rcases hl with rfl | hl
      · exact .inl ⟨[], rfl⟩
      · exact .inr ⟨[], h, rfl, rfl, hl⟩
    | succ n ih =>
      intro hle
      rcases ih (Nat.le_of_succ_le hle) with hchain | ⟨l, e, hlen, hw, he⟩
      · exact .inl hchain
      · obtain ⟨k, hk⟩ := Option.isSome_iff_exists.mp (ruleIndex_isSome.mpr he)
        obtain ⟨hu, hnext⟩ := hr k ⟨h, l, e, hh, hw, by omega, hk⟩
        have hon : WalkTo b h (l ++ [k]) b.rules[k].next := walkTo_append.mpr ⟨e, hw, hk, hu, rfl⟩
        rcases hnext with hend | hnext
        · exact .inl ⟨l ++ [k], by rwa [hend] at hon⟩
        · exact .inr ⟨l ++ [k], _, by simp [hlen], hon, hnext⟩
  exact (hwalk 256 (le_refl _)).resolve_right hn

/-! ### The tests of one entry (R137 to R139) -/

theorem classOfByte_isSome {c : Byte} : (∃ cls, classOfByte c = some cls) ↔ c.toNat ≤ 6 := by
  unfold classOfByte
  generalize c.toNat = n
  constructor
  · rintro ⟨cls, h⟩
    split at h <;> first | omega | cases h
  · intro h
    interval_cases n <;> exact ⟨_, rfl⟩

theorem classOfByte_eq_none {c : Byte} : classOfByte c = none ↔ 6 < c.toNat := by
  rw [← not_iff_not, Nat.not_lt, ← classOfByte_isSome, ← ne_eq, Option.ne_none_iff_exists']

theorem widthFails_eq_false {w : Byte} : widthFails w = false ↔ w = 0 ∨ w = 2 ∨ w = 4 := by
  simp only [widthFails, Bool.and_eq_false_iff, bne_eq_false_iff_eq, or_assoc]

theorem offsetFails_eq_false {off : BitVec 16} {w : Nat} : offsetFails off w = false ↔ off.toNat + w ≤ 1500 := by
  simp [offsetFails]

theorem widthOffsetFails_eq_false {off : BitVec 16} {w : Byte} :
    widthOffsetFails off w = false ↔ FieldFits off w.toNat := by
  have hw : w = 0 ↔ w.toNat = 0 := by bv_omega
  simp only [widthOffsetFails, Bool.and_eq_false_iff, bne_eq_false_iff_eq, offsetFails_eq_false, hw]

/-- A field of a width that is not 0 lies within 1500 bytes exactly when the sum does. -/
theorem fieldFits_pos {off : BitVec 16} {w : Nat} (hw : w ≠ 0) : FieldFits off w ↔ off.toNat + w ≤ 1500 :=
  or_iff_right hw

theorem kind_passes_iff {p : Profile} :
    (decide (1 < p.kind.toNat) = false ∧
        (if p.kind = 0 then decide (p.matchValue.toNat < 0x0600) else p.matchValue == 0) = false) ↔
      (p.kind = 0 ∧ 0x0600 ≤ p.matchValue.toNat ∨ p.kind = 1 ∧ p.matchValue ≠ 0) := by
  have h1 : p.kind = 1 ↔ p.kind.toNat = 1 := by bv_omega
  by_cases h : p.kind = 0
  · simp [h]
  · have hk : ¬ 1 < p.kind.toNat ↔ p.kind = 1 := by bv_omega
    rw [if_neg h]
    simp only [decide_eq_false_iff_not, hk, beq_eq_false_iff_ne, h, false_and, false_or]

theorem profileFails_eq_false {p : Profile} : profileFails p = false ↔ PassingProfile p := by
  have htest : profileFails p = false ↔
      (decide (1 < p.kind.toNat) = false ∧
        (if p.kind = 0 then decide (p.matchValue.toNat < 0x0600) else p.matchValue == 0) = false) ∧
      p.byteOrder.toNat ≤ 1 ∧ (p.codeWidth = 1 ∨ p.codeWidth = 2) ∧ widthFails p.tagWidth = false ∧
      widthFails p.objectWidth = false ∧ p.segmentFields.toNat ≤ 1 ∧ p.firstSegment.toNat ≤ 1 ∧
      p.unlistedClass.toNat ≤ 6 ∧ widthOffsetFails p.codeOffset p.codeWidth = false ∧
      widthOffsetFails p.tagOffset p.tagWidth = false ∧ widthOffsetFails p.objectOffset p.objectWidth = false ∧
      offsetFails p.valueOffset 1 = false ∧ offsetFails p.statusOffset 1 = false ∧
      offsetFails p.responseValueOffset 1 = false ∧
      (p.segmentFields = 1 → offsetFails p.segmentNumberOffset 2 = false ∧
        offsetFails p.segmentLengthOffset 2 = false ∧ offsetFails p.segmentPayloadOffset 0 = false) := by
    rw [profileFails]
    simp only [Bool.or_eq_false_iff, Bool.and_eq_false_iff, hasSegments, decide_eq_false_iff_not, Nat.not_lt,
      bne_eq_false_iff_eq, beq_eq_false_iff_ne]
    tauto
  rw [htest, kind_passes_iff, ← classOfByte_isSome]
  simp only [PassingProfile, widthFails_eq_false, widthOffsetFails_eq_false, offsetFails_eq_false,
    fieldFits_pos Nat.one_ne_zero, fieldFits_pos (show 2 ≠ 0 by omega), Nat.add_zero]

theorem slotProfileFails_eq_false {c : Controller} :
    slotProfileFails b c = false ↔ ∃ i : Fin 8, c.profile.toNat = i.val ∧ isUsed b.profiles[i].used = true ∧
      (c.imageCheck = 1 → b.profiles[i].tagWidth ≠ 0 ∧ b.profiles[i].segmentFields = 1) := by
  unfold slotProfileFails
  split
  · next h =>
    have hi : (∃ i : Fin 8, c.profile.toNat = i.val ∧ isUsed b.profiles[i].used = true ∧
          (c.imageCheck = 1 → b.profiles[i].tagWidth ≠ 0 ∧ b.profiles[i].segmentFields = 1)) ↔
        isUsed b.profiles[c.profile.toNat].used = true ∧
          (c.imageCheck = 1 → b.profiles[c.profile.toNat].tagWidth ≠ 0 ∧
            b.profiles[c.profile.toNat].segmentFields = 1) := by
      constructor
      · rintro ⟨⟨i, hlt⟩, hi, hp⟩
        obtain rfl : c.profile.toNat = i := hi
        exact hp
      · exact fun hp => ⟨⟨_, h⟩, rfl, hp⟩
    rw [hi]
    simp only [Bool.or_eq_false_iff, Bool.not_eq_false', Bool.and_eq_false_iff, imageCheckOn, hasSegments,
      beq_eq_false_iff_ne, beq_iff_eq]
    tauto
  · next h =>
    constructor
    · intro hf
      cases hf
    · rintro ⟨i, hi, -⟩
      omega

theorem passingController_iff {c : Controller} :
    PassingController station b c ↔ isGroup c.address = false ∧ c.address ≠ 0 ∧ c.address ≠ station ∧
      c.unknownTraffic.toNat ≤ 1 ∧ c.imageCheck.toNat ≤ 1 ∧
      (c.scoreWindow = 1 ∨ c.scoreWindow = 2 ∨ c.scoreWindow = 4 ∨ c.scoreWindow = 8) ∧
      slotProfileFails b c = false := by
  rw [slotProfileFails_eq_false]
  rfl

theorem controllerFails_iff {i : Fin 16} :
    controllerFails station b i = true ↔ slotUsed b i = true ∧
      (¬ PassingController station b b.controllers[i] ∨ ¬ LinkLegal b.controllers[i].chainHead ∨
        Cycles b b.controllers[i].chainHead ∨
        ∃ j < i, slotUsed b j = true ∧ b.controllers[j].address = b.controllers[i].address) := by
  have hsame : (allSlots.any (fun j => decide (j.val < i.val) && slotUsed b j &&
      b.controllers[j].address == b.controllers[i].address)) = true ↔
      ∃ j < i, slotUsed b j = true ∧ b.controllers[j].address = b.controllers[i].address := by
    simp only [allSlots, List.any_eq_true, List.mem_finRange, true_and, Bool.and_eq_true, decide_eq_true_eq,
      beq_iff_eq, and_assoc, Fin.lt_def]
  rw [passingController_iff, ← isLink_iff, ← chainCycles_iff, ← hsame, controllerFails]
  simp only [slotUsed, Bool.and_eq_true, Bool.or_eq_true, beq_iff_eq, Bool.not_eq_true', decide_eq_true_eq,
    bne_iff_ne, ← Bool.not_eq_true]
  refine and_congr_right fun _ => ?_
  grind

theorem sourceFails_iff {i : Fin 32} :
    sourceFails b i = true ↔ isUsed b.sources[i].used = true ∧
      ∃ j < i, isUsed b.sources[j].used = true ∧ b.sources[j].address = b.sources[i].address := by
  simp only [sourceFails, List.any_eq_true, List.mem_finRange, true_and, Bool.and_eq_true, decide_eq_true_eq,
    beq_iff_eq, and_assoc, Fin.lt_def]

/-! ### The Code Map -/

theorem codeMapIndex_inj {i i' : Fin 8} {j j' : Fin 32} (h : codeMapIndex i j = codeMapIndex i' j') :
    i = i' ∧ j = j' := by
  have hv : i.val * 32 + j.val = i'.val * 32 + j'.val := congrArg Fin.val h
  constructor <;> apply Fin.ext <;> omega

theorem exists_codeMapIndex (k : Fin 256) : ∃ i j, codeMapIndex i j = k :=
  ⟨⟨k.val / 32, by omega⟩, ⟨k.val % 32, by omega⟩, Fin.ext (Nat.div_add_mod' _ _)⟩

theorem codeMapIndex_div (i : Fin 8) (j : Fin 32) : (codeMapIndex i j).val / 32 = i.val := by
  change (i.val * 32 + j.val) / 32 = i.val
  omega

theorem codeMapFails_index {i : Fin 8} {j : Fin 32} :
    codeMapFails b (codeMapIndex i j) = true ↔ isUsed b.profiles[i].used = true ∧
      isUsed b.codeMap[codeMapIndex i j].used = true ∧
      (classOfByte b.codeMap[codeMapIndex i j].cls = none ∨
        ∃ m < j, isUsed b.codeMap[codeMapIndex i m].used = true ∧
          b.codeMap[codeMapIndex i m].code = b.codeMap[codeMapIndex i j].code) := by
  have hrow : (∃ k : Fin 256, k.val < (codeMapIndex i j).val ∧ k.val / 32 = i.val ∧
        isUsed b.codeMap[k].used = true ∧ b.codeMap[k].code = b.codeMap[codeMapIndex i j].code) ↔
      ∃ m < j, isUsed b.codeMap[codeMapIndex i m].used = true ∧
        b.codeMap[codeMapIndex i m].code = b.codeMap[codeMapIndex i j].code := by
    constructor
    · rintro ⟨k, hlt, hdiv, hk⟩
      obtain ⟨i', m, rfl⟩ := exists_codeMapIndex k
      obtain rfl : i' = i := Fin.ext ((codeMapIndex_div i' m).symm.trans hdiv)
      exact ⟨m, Nat.lt_of_add_lt_add_left hlt, hk⟩
    · rintro ⟨m, hm, hk⟩
      exact ⟨codeMapIndex i m, Nat.add_lt_add_left hm _, codeMapIndex_div i m, hk⟩
  rw [← hrow, codeMapFails]
  simp only [codeMapIndex_div, Bool.and_eq_true, Bool.or_eq_true, List.any_eq_true, List.mem_finRange, true_and,
    decide_eq_true_eq, beq_iff_eq, Option.isNone_iff_eq_none, and_assoc, Fin.getElem_fin]

/-! ### Rules and images -/

theorem passingRule_bound {r : Rule} :
    boundFails r = false ↔ r.classSet = 2 ∧ r.outOfBand.toNat ≤ 1 ∧ r.freeInWindow.toNat ≤ 1 ∧
      ∃ t, valueTypeOfByte r.valueType = some t ∧ typeMin t ≤ boundNumber t r.low ∧
        boundNumber t r.low ≤ boundNumber t r.high ∧ boundNumber t r.high ≤ typeMax t ∧
        (r.step.toNat : Int) ≤ typeSpan t := by
  unfold boundFails
  simp only [Bool.or_eq_false_iff, bne_eq_false_iff_eq, decide_eq_false_iff_not, Nat.not_lt]
  cases valueTypeOfByte r.valueType with
  | none => simp
  | some t =>
    simp only [Bool.or_eq_false_iff, decide_eq_false_iff_not, Int.not_lt, Option.some.injEq, exists_eq_left']
    constructor
    · rintro ⟨⟨⟨hset, ⟨⟨⟨⟨hlow, -⟩, -⟩, hhigh⟩, hle⟩, hstep⟩, hout⟩, hfree⟩
      exact ⟨hset, hout, hfree, hlow, hle, hhigh, hstep⟩
    · rintro ⟨hset, hout, hfree, hlow, hle, hhigh, hstep⟩
      exact ⟨⟨⟨hset, ⟨⟨⟨⟨hlow, hle.trans hhigh⟩, hlow.trans hle⟩, hhigh⟩, hle⟩, hstep⟩, hout⟩, hfree⟩

theorem ruleFails_iff {r : Rule} :
    ruleFails r = true ↔ isUsed r.used = false ∨ ¬ LinkLegal r.next ∨ ¬ PassingRule r := by
  have hrange : r.objectLast.toNat < r.objectFirst.toNat ↔ ¬ r.objectFirst ≤ r.objectLast := by
    rw [BitVec.le_def, Nat.not_le]
  have haction : 3 < r.action.toNat ↔ ¬ r.action.toNat ≤ 3 := Nat.not_le.symm
  unfold PassingRule
  rw [← passingRule_bound, ← isLink_iff, ruleFails]
  simp only [Bool.or_eq_true, Bool.not_eq_true', decide_eq_true_eq, beq_iff_eq, Bool.and_eq_true, hrange, haction,
    ← Bool.not_eq_true]
  tauto

theorem imageFails_iff {e : ApprovedImage} : imageFails e = true ↔ isUsed e.used = true ∧ ¬ PassingImage e := by
  unfold imageFails PassingImage labelCharFails
  simp only [Bool.and_eq_true, Bool.or_eq_true, beq_iff_eq, List.any_eq_true, List.mem_range, decide_eq_true_eq,
    not_and_or, not_forall, Nat.not_le, ne_eq, not_not, exists_prop]

/-! ### The first failure -/

theorem find_finRange {n : Nat} (p : Fin n → Bool) (k : Nat) :
    ((List.finRange n).find? p).map Fin.val = some k ↔
      (∃ i, i.val = k ∧ p i = true) ∧ ∀ k' < k, ¬ ∃ i, i.val = k' ∧ p i = true := by
  simp only [Option.map_eq_some_iff, List.find?_eq_some_iff_getElem, List.getElem_finRange, List.length_finRange]
  constructor
  · rintro ⟨i, ⟨hi, m, hm, rfl, hbefore⟩, rfl⟩
    refine ⟨⟨_, rfl, hi⟩, ?_⟩
    rintro _ hlt ⟨j, rfl, hj⟩
    have := hbefore j.val hlt
    simp_all
  · rintro ⟨⟨i, rfl, hi⟩, hbefore⟩
    refine ⟨i, ⟨hi, i.val, i.isLt, rfl, fun j hj => ?_⟩, rfl⟩
    simpa using fun h => hbefore j hj ⟨⟨j, hj.trans i.isLt⟩, rfl, h⟩

theorem entryFails_of_test {n : Nat} {p : Fin n → Bool} {F : Nat → Prop}
    (h : ∀ k, F k ↔ ∃ i, i.val = k ∧ p i = true) (k : Nat) :
    ((List.finRange n).find? p).map Fin.val = some k ↔ F k ∧ ∀ k' < k, ¬ F k' := by
  simp only [find_finRange, h]

/-- The index named in one table is its first failing entry. -/
theorem firstFailureIn_eq_some {t : TableId} {k : Nat} :
    firstFailureIn station b t = some k ↔
      EntryFails station b t k ∧ ∀ k' < k, ¬ EntryFails station b t k' := by
  cases t with
  | bankHeader =>
    have hf : headerFails b = true ↔ ¬ LinkLegal b.commonHead ∨ Cycles b b.commonHead := by
      rw [← isLink_iff, ← chainCycles_iff, headerFails]
      simp
    simp only [firstFailureIn, EntryFails, ← hf, Option.ite_none_right_eq_some, Option.some.injEq]
    constructor
    · rintro ⟨h, rfl⟩
      exact ⟨⟨rfl, h⟩, by omega⟩
    · rintro ⟨⟨rfl, h⟩, -⟩
      exact ⟨h, rfl⟩
  | profiles =>
    refine entryFails_of_test (p := fun i => isUsed b.profiles[i].used && profileFails b.profiles[i]) (F := EntryFails station b .profiles)
      (fun k => exists_congr fun i => and_congr_right fun _ => ?_) k
    rw [Bool.and_eq_true, ← profileFails_eq_false, Bool.not_eq_false]
  | codeMap =>
    refine entryFails_of_test (fun k => ?_) k
    constructor
    · rintro ⟨i, j, hk, h⟩
      exact ⟨_, hk, codeMapFails_index.mpr h⟩
    · rintro ⟨m, hk, h⟩
      obtain ⟨i, j, rfl⟩ := exists_codeMapIndex m
      exact ⟨i, j, hk, codeMapFails_index.mp h⟩
  | controllers =>
    exact entryFails_of_test (p := controllerFails station b) (F := EntryFails station b .controllers)
      (fun k => exists_congr fun i => and_congr_right fun _ => controllerFails_iff.symm) k
  | sources =>
    exact entryFails_of_test (p := sourceFails b) (F := EntryFails station b .sources)
      (fun k => exists_congr fun i => and_congr_right fun _ => sourceFails_iff.symm) k
  | rules =>
    refine entryFails_of_test (p := fun i => (reachedRules b).contains i && ruleFails b.rules[i]) (F := EntryFails station b .rules)
      (fun k => exists_congr fun i => and_congr_right fun _ => ?_) k
    rw [Bool.and_eq_true, ruleFails_iff, List.contains_iff_mem, mem_reachedRules]
  | images =>
    exact entryFails_of_test (p := fun i => imageFails b.images[i]) (F := EntryFails station b .images)
      (fun k => exists_congr fun i => and_congr_right fun _ => imageFails_iff.symm) k

theorem firstFailureIn_eq_none {t : TableId} :
    firstFailureIn station b t = none ↔ ∀ k, ¬ EntryFails station b t k := by
  classical
  constructor
  · intro h k hk
    have hfirst := firstFailureIn_eq_some.mpr ⟨Nat.find_spec ⟨k, hk⟩, fun _ => Nat.find_min ⟨k, hk⟩⟩
    rw [h] at hfirst
    cases hfirst
  · exact fun h => Option.eq_none_iff_forall_ne_some.mpr fun k hk => h k (firstFailureIn_eq_some.mp hk).1

theorem mem_allTables (t : TableId) : t ∈ allTables := by
  cases t <;> decide

theorem firstFailure_eq_none : firstFailure station b = none ↔ ∀ t k, ¬ EntryFails station b t k := by
  simp only [firstFailure, List.findSome?_eq_none_iff, mem_allTables, true_implies, Option.map_eq_none_iff,
    firstFailureIn_eq_none]

theorem allTables_pairwise : allTables.Pairwise (fun t t' => tableCode t < tableCode t') := by
  decide

theorem firstFailure_eq_some {t : TableId} {k : Nat} :
    firstFailure station b = some (t, k) ↔ FirstToFail station b t k := by
  rw [firstFailure, List.findSome?_eq_some_iff]
  constructor
  · rintro ⟨before, t₀, after, hsplit, hfail, hbefore⟩
    obtain ⟨k₀, hfail, hk⟩ := Option.map_eq_some_iff.mp hfail
    cases hk
    obtain ⟨hk, hlower⟩ := firstFailureIn_eq_some.mp hfail
    refine ⟨hk, ?_⟩
    rintro t' k' (hlt | ⟨rfl, hlt⟩)
    · have hmem := mem_allTables t'
      have hpair := allTables_pairwise
      rw [hsplit] at hmem hpair
      obtain ⟨-, hafter, -⟩ := List.pairwise_append.mp hpair
      have hrest := List.rel_of_pairwise_cons hafter (a' := t')
      rcases List.mem_append.mp hmem with hmem | hmem
      · exact firstFailureIn_eq_none.mp (Option.map_eq_none_iff.mp (hbefore t' hmem)) k'
      · rcases List.mem_cons.mp hmem with rfl | hmem
        · exact absurd hlt (BitVec.lt_irrefl _)
        · exact absurd (hrest hmem) (BitVec.lt_asymm hlt)
    · exact hlower k' hlt
  · rintro ⟨hk, hlower⟩
    obtain ⟨before, after, hsplit⟩ := List.append_of_mem (mem_allTables t)
    refine ⟨before, t, after, hsplit, ?_, fun t' ht' => ?_⟩
    · rw [firstFailureIn_eq_some.mpr ⟨hk, fun k' hlt => hlower t k' (.inr ⟨rfl, hlt⟩)⟩]
      rfl
    · have hpair := allTables_pairwise
      rw [hsplit] at hpair
      obtain ⟨-, -, hlt⟩ := List.pairwise_append.mp hpair
      exact Option.map_eq_none_iff.mpr (firstFailureIn_eq_none.mpr fun k' =>
        hlower t' k' (.inl (hlt t' ht' t List.mem_cons_self)))

/-! ### The bank that passes -/

theorem entryFails_of_not_inj {α : Type} {n : Nat} {f : Fin n → α} {used : Fin n → Bool}
    (h : ∀ i, used i = true → ¬ ∃ j < i, used j = true ∧ f j = f i) :
    ∀ i j, used i = true → used j = true → f i = f j → i = j := by
  intro i j hi hj hf
  rcases lt_trichotomy i j with hlt | rfl | hlt
  · exact absurd ⟨i, hlt, hi, hf⟩ (h j hj)
  · rfl
  · exact absurd ⟨j, hlt, hj, hf.symm⟩ (h i hi)

theorem passingBank_of_noneFails (h : ∀ t k, ¬ EntryFails station b t k) : PassingBank station b := by
  have hreached : ∀ k, Reached b k →
      isUsed b.rules[k].used = true ∧ LinkLegal b.rules[k].next ∧ PassingRule b.rules[k] := fun k hk => by
    have : ¬ _ := fun hf => h .rules k.val ⟨k, rfl, hk, hf⟩
    rwa [not_or, not_or, not_not, not_not, Bool.not_eq_false] at this
  have hchain : ∀ l, IsHead b l → LinkLegal l ∧ ¬ Cycles b l → ∃ c, ChainFrom b l c := fun l hl hok =>
    chain_of_legal hl hok.1 hok.2 fun k hk => ⟨(hreached k hk).1, (hreached k hk).2.1⟩
  have hslot : ∀ i, slotUsed b i = true → PassingController station b b.controllers[i] ∧
      LinkLegal b.controllers[i].chainHead ∧ ¬ Cycles b b.controllers[i].chainHead ∧
      ¬ ∃ j < i, slotUsed b j = true ∧ b.controllers[j].address = b.controllers[i].address := fun i hi => by
    have : ¬ _ := fun hf => h .controllers i.val ⟨i, rfl, hi, hf⟩
    rwa [not_or, not_not, not_or, not_not, not_or] at this
  have hentry : ∀ i : Fin 8, isUsed b.profiles[i].used = true → ∀ j : Fin 32,
      isUsed b.codeMap[codeMapIndex i j].used = true → classOfByte b.codeMap[codeMapIndex i j].cls ≠ none ∧
        ¬ ∃ m < j, isUsed b.codeMap[codeMapIndex i m].used = true ∧
          b.codeMap[codeMapIndex i m].code = b.codeMap[codeMapIndex i j].code := fun i hi j hj => by
    have : ¬ _ := fun hf => h .codeMap _ ⟨i, j, rfl, hi, hj, hf⟩
    simpa only [not_or] using this
  refine ⟨?_, fun i hi => ⟨?_, fun j hj => ⟨?_, fun k hk => ?_⟩⟩, fun i hi => ⟨(hslot i hi).1, ?_, fun j hj => ?_⟩, ?_,
    ?_, fun i hi => ?_⟩
  · refine hchain _ (.inl rfl) ?_
    have : ¬ _ := fun hf => h .bankHeader 0 ⟨rfl, hf⟩
    rwa [not_or, not_not] at this
  · exact not_not.mp fun hf => h .profiles i.val ⟨i, rfl, hi, hf⟩
  · exact Option.ne_none_iff_exists'.mp (hentry i hi j hj).1
  · exact entryFails_of_not_inj (f := fun j => b.codeMap[codeMapIndex i j].code)
      (used := fun j => isUsed b.codeMap[codeMapIndex i j].used) (fun m hm => (hentry i hi m hm).2) j k hj hk
  · obtain ⟨-, hlegal, hcycle, -⟩ := hslot i hi
    exact hchain _ (.inr ⟨i, hi, rfl⟩) ⟨hlegal, hcycle⟩
  · exact entryFails_of_not_inj (f := fun j => b.controllers[j].address) (used := slotUsed b)
      (fun m hm => (hslot m hm).2.2.2) i j hi hj
  · exact entryFails_of_not_inj (f := fun j : Fin 32 => b.sources[j].address) (used := fun j => isUsed b.sources[j].used)
      fun m hm hf => h .sources m.val ⟨m, rfl, hm, hf⟩
  · intro l c k hl hc hk
    obtain ⟨pre, post, rfl⟩ := List.append_of_mem hk
    obtain ⟨m, hpre, hm, -, -⟩ := walkTo_append.mp hc
    have hlen := chain_length hc
    simp only [List.length_append, List.length_cons] at hlen
    exact (hreached k ⟨l, pre, m, hl, hpre, by omega, hm⟩).2.2
  · exact not_not.mp fun hf => h .images i.val ⟨i, rfl, hi, hf⟩

theorem noneFails_of_passingBank (h : PassingBank station b) (t : TableId) (k : Nat) : ¬ EntryFails station b t k := by
  obtain ⟨⟨common, hcommon⟩, hprofiles, hslots, hsources, hrules, himages⟩ := h
  cases t with
  | bankHeader =>
    rintro ⟨-, hf | hf⟩
    · exact hf (legal_of_chain hcommon)
    · exact not_cycles_of_chain hcommon hf
  | profiles =>
    rintro ⟨i, -, hi, hf⟩
    exact hf (hprofiles i hi).1
  | codeMap =>
    rintro ⟨i, j, -, hi, hj, hf | ⟨m, hlt, hm, hcode⟩⟩
    · obtain ⟨⟨cls, hcls⟩, -⟩ := (hprofiles i hi).2 j hj
      rw [hf] at hcls
      cases hcls
    · exact absurd (((hprofiles i hi).2 m hm).2 j hj hcode) hlt.ne
  | controllers =>
    rintro ⟨i, -, hi, hf⟩
    obtain ⟨hpass, ⟨chain, hchain⟩, hunique⟩ := hslots i hi
    rcases hf with hf | hf | hf | ⟨j, hlt, hj, haddress⟩
    · exact hf hpass
    · exact hf (legal_of_chain hchain)
    · exact not_cycles_of_chain hchain hf
    · exact absurd (hunique j hj haddress.symm) hlt.ne'
  | sources =>
    rintro ⟨i, -, hi, j, hlt, hj, haddress⟩
    exact absurd (hsources j i hj hi haddress) hlt.ne
  | rules =>
    rintro ⟨i, -, ⟨l, pre, m, hl, hpre, -, hm⟩, hf⟩
    have hchain : ∃ c, ChainFrom b l c := by
      rcases hl with rfl | ⟨j, hj, rfl⟩
      · exact ⟨common, hcommon⟩
      · exact (hslots j hj).2.1
    obtain ⟨c, hc⟩ := hchain
    obtain ⟨hmem, hused, rest, hrest⟩ := chain_of_reached hc hpre hm
    rcases hf with hf | hf | hf
    · rw [hused] at hf
      cases hf
    · exact hf (legal_of_chain hrest)
    · exact hf (hrules l c i hl hc hmem)
  | images =>
    rintro ⟨i, -, hi, hf⟩
    exact hf (himages i hi)

theorem firstFailure_eq_none_iff : firstFailure station b = none ↔ PassingBank station b :=
  firstFailure_eq_none.trans ⟨passingBank_of_noneFails, noneFails_of_passingBank⟩

/-! ### The active bank -/

theorem passingBank_empty : PassingBank station {} := by
  have hprofile : ∀ i : Fin 8, isUsed ({} : Bank).profiles[i].used = false := by decide
  have hslot : ∀ i : Fin 16, slotUsed {} i = false := by decide
  have hsource : ∀ i : Fin 32, isUsed ({} : Bank).sources[i].used = false := by decide
  have himage : ∀ i : Fin 32, isUsed ({} : Bank).images[i].used = false := by decide
  refine ⟨⟨[], rfl⟩, fun i hi => ?_, fun i hi => ?_, fun i _ hi => ?_, fun h l k hh hl hk => ?_, fun i hi => ?_⟩
  · rw [hprofile] at hi
    cases hi
  · rw [hslot] at hi
    cases hi
  · rw [hsource] at hi
    cases hi
  · obtain rfl | ⟨i, hi, -⟩ := hh
    · cases l with
      | nil => cases hk
      | cons j rest => cases hl.1
    · rw [hslot] at hi
      cases hi
  · rw [himage] at hi
    cases hi

/-- The fallback bank passes under every station address. -/
theorem firstFailure_empty (station : MacAddress) : firstFailure station {} = none :=
  firstFailure_eq_none_iff.mpr passingBank_empty

section
variable {token : Option (BitVec 64)} {s t : State}

theorem bankConsistent_congr (hstation : t.station = s.station) (ha : t.bankA = s.bankA) (hb : t.bankB = s.bankB)
    (hactive : t.active = s.active) (hs : BankConsistent s) : BankConsistent t := by
  have hbank : t.activeBank = s.activeBank := by
    unfold State.activeBank State.bank
    rw [ha, hb, hactive]
  rw [BankConsistent, hbank, hstation]
  exact hs

theorem fade_consistent (h : Fade s t) (hs : BankConsistent s) : BankConsistent t := by
  cases h
  case record => exact bankConsistent_congr (by simp) (by simp) (by simp) (by simp) hs
  case timeout =>
    exact bankConsistent_congr (s := s) (by simp [removeEntry]) (by simp [removeEntry]) (by simp [removeEntry])
      (by simp [removeEntry]) hs
  all_goals exact hs

theorem setInactiveBank_consistent (b : Bank) (hs : BankConsistent s) : BankConsistent (s.setInactiveBank b) := by
  have hbank : (s.setInactiveBank b).activeBank = s.activeBank := by
    unfold State.setInactiveBank State.activeBank State.bank
    cases h : s.active <;> rfl
  rw [BankConsistent, hbank, setInactiveBank_station]
  exact hs

theorem act_consistent (h : Act token s t) (hs : BankConsistent s) : BankConsistent t := by
  cases h
  case work h =>
    cases h
    case fade h => exact fade_consistent h hs
    case bank b _ => exact setInactiveBank_consistent b hs
    case swap hp => exact hp
    all_goals exact hs
  case port | forward | reply | notice | link =>
    exact bankConsistent_congr (s := s) (by simp [forwardFrame]) (by simp [forwardFrame]) (by simp [forwardFrame])
      (by simp [forwardFrame]) hs
  case pin => exact hs

theorem start_consistent {station : MacAddress} {outcome : StartOutcome} {settings : Settings} {bank : Bank}
    (h : firstFailure station bank = none ∨ bank = {}) :
    BankConsistent (installStart s station outcome settings bank) := by
  change firstFailure station bank = none
  rcases h with h | rfl
  · exact h
  · exact firstFailure_empty station

end

theorem activeBank_staysConsistent {s t : State} (hs : BankConsistent s) (h : step s = .next t) : BankConsistent t :=
  step_keeps (P := BankConsistent) (fun _ _ h => h)
    (fun _ n h => elapse_keeps (fun _ _ h => h) (fun _ _ => fade_consistent)
      (fun u _ h => act_consistent (token := none) (.notice u) h) n h)
    (fun _ _ _ => act_consistent) (fun _ _ _ => firstFailure_empty _)
    (fun _ _ _ _ _ _ _ hb _ => start_consistent hb) hs h

/-- Settles O58: each test of an entry is its condition of R136 to R139; a bank becomes active by a COMMIT or a start that
has found no failing entry, or as the fallback bank. -/
theorem activeBankStaysConsistent : Obligations.ActiveBankStaysConsistent :=
  ⟨fun _ _ => ⟨firstFailure_eq_none_iff, fun _ _ => firstFailure_eq_some⟩, fun _ _ => activeBank_staysConsistent⟩

end Sys2Proof.Proofs.Consistency
end

section
/-! The queue's front, the Event Queue, the reset and the ends of a SAVE (O1, O4 to O7, O12, O13, O53). -/

namespace Sys2Proof.Proofs.ResetAndSave

open Sys2Proof Sys2Proof.Machine Sys2Proof.Claims Sys2Proof.Laws Sys2Proof.Proofs

variable {s u w : State}

/-- Settles O1. -/
theorem stepRunsTheFrontCommand : Obligations.StepRunsTheFrontCommand := by
  refine ⟨fun _ _ _ => rfl, fun s h => ?_⟩
  rw [step, h]

/-! ### The Event Queue (R159, R162) -/

theorem noticeAfter_of_quiet (h : u.events ≠ [] ∨ w.events = [] ∨ w.settings.notice = none) : noticeAfter u w = w := by
  unfold noticeAfter
  split
  · next e rest n hu hw hn =>
    rcases h with h | h | h
    · exact absurd hu h
    · rw [hw] at h
      cases h
    · rw [hn] at h
      cases h
  · rfl

theorem noticeAfter_of_record {e : EventRecord} {rest : List EventRecord} {n : NoticeDestination} (hu : u.events = [])
    (hw : w.events = e :: rest) (hn : w.settings.notice = some n) :
    noticeAfter u w =
      if w.net.up = false then w
      else if w.net.replyQueue.length < 4 then
        { w with net := placeReply w.net ⟨.notice, noticeFrame w n e u.overflow⟩ }
      else { w with management := { w.management with noticesLost := satAdd w.management.noticesLost 1 } } := by
  have hoffer : noticeAfter u w = offerNotice w n e u.overflow := by rw [noticeAfter, hu, hw, hn]
  rw [hoffer, offerNotice]
  cases hup : w.net.up <;> simp [State.setPort]

/-- Nothing recorded, no NOTICE. -/
theorem noticeAfter_of_sameEvents (h : w.events = u.events) : noticeAfter u w = w :=
  noticeAfter_of_quiet (or_iff_not_imp_left.mpr fun hu => .inl (h.trans (not_not.mp hu)))

theorem noticeAfter_self (s : State) : noticeAfter s s = s := noticeAfter_of_sameEvents rfl

/-- Settles O4. -/
theorem eventQueueHoldsSixtyFourAndOffersNotices : Obligations.EventQueueHoldsSixtyFourAndOffersNotices :=
  ⟨fun _ _ => rfl, fun _ _ => noticeAfter_of_quiet, fun _ _ _ _ _ => noticeAfter_of_record⟩

/-! ### The reset (R164, R171) -/

/-- Settles O5. -/
theorem resetLeavesTheStatedValues : Obligations.ResetLeavesTheStatedValues := by
  have hslots : ∀ i : Fin 16, slotUsed ({} : Bank) i = false := by decide
  refine ⟨rfl, rfl, rfl, rfl, fun i => ?_, rfl, rfl, fun i => ?_, rfl, rfl, rfl, fun d => ?_,
    fun i => ⟨hslots i, hslots i⟩, ⟨rfl, rfl⟩, rfl, rfl, rfl, rfl, rfl, rfl, rfl, rfl, rfl, rfl⟩
  all_goals simp [State.reset]

theorem abandonSave_memory {a : Nat} (hm : memoryWf s.memory = true) (ha : a < bodyAddress ∨ bodyAddress + bodyLength ≤ a) :
    memoryRead (abandonSave s).memory a = memoryRead s.memory a := by
  unfold abandonSave
  split
  · rfl
  · next run hrun =>
    refine memoryRead_memoryWrite_outside _ _ _ _ hm (ha.imp_right fun ha => ?_)
    rw [List.length_take, bodyBytes_length]
    omega

theorem abandonSave_frame (s : State) :
    ∃ q m f, abandonSave s = { s with save := q, memory := m, freeValues := f } := by
  unfold abandonSave
  split <;> exact ⟨_, _, _, rfl⟩

theorem abandonSave_of_none (h : s.save = none) : abandonSave s = s := by
  rw [abandonSave, h]

/-- Settles O6. -/
theorem resetNAssertReturnsEveryBlock : Obligations.ResetNAssertReturnsEveryBlock := by
  intro dt s
  have hexec : exec (.resetNAssert dt) s = .next (assertReset (s.elapse dt)) := rfl
  rw [hexec, assertReset, elapse_resetN]
  constructor
  · intro hr
    rw [hr, Time.elapse_of_reset hr]
    rfl
  · intro hr hm
    rw [hr]
    obtain ⟨q, m, f, hframe⟩ := abandonSave_frame (s.elapse dt)
    refine ⟨_, rfl, ?_, fun hnone => ?_, fun a => abandonSave_memory hm⟩
    · rw [if_pos rfl, hframe]
      simp [resetPart]
      rfl
    · rw [if_pos rfl, abandonSave_of_none hnone]
      rfl

/-- Settles O7. -/
theorem resetNReleaseBeginsStarting : Obligations.ResetNReleaseBeginsStarting := by
  intro dt s
  have hexec : exec (.resetNRelease dt) s = .next (releaseReset (s.elapse dt)) := rfl
  rw [hexec, releaseReset, elapse_resetN]
  cases hr : s.resetN
  · rw [Time.elapse_of_reset hr]
    simp [resetPart, stabilityMs, State.reset]
  · rfl

theorem guardsSound_reset : GuardsSound State.reset :=
  (Guards.guardsSound_iff _).mpr (Guards.resetPart_sound State.reset true)

/-- Settles O53. -/
theorem resetMeetsTheInvariants : Obligations.ResetMeetsTheInvariants :=
  ⟨reset_memory_wf, by decide, Invariants.reset_tables State.reset true, guardsSound_reset,
    Consistency.firstFailure_empty _, Time.reset_ahead State.reset true, by decide⟩

/-! ### The end of a SAVE (R170) -/

/-- The first bytes of a run of the memory are a shorter run. -/
theorem slice_memoryRun {m : List (Nat × Byte)} {n k a : Nat} (hm : memoryWf m = true) (hk : k ≤ n) :
    slice (memoryRun n a m) 0 k = memoryRun k a m := by
  obtain ⟨hs, -⟩ := (memoryWf_iff _).mp hm
  obtain ⟨d, rfl⟩ := Nat.exists_eq_add_of_le hk
  rw [memoryRun_eq _ _ _ hs, memoryRun_eq _ _ _ hs, List.range'_append_1.symm.trans rfl, List.map_append]
  simpa using slice_append_left ((List.range' a k).map (memoryRead m)) _

/-- What the memory holds after a SAVE whose read-back differs (log entry 15). -/
def failedMemory (m : List (Nat × Byte)) (l : List Byte) : List (Nat × Byte) :=
  memoryWrite (memoryWrite (memoryWrite m headerAddress l) headerAddress (beBytes 4 imageMarker.toNat))
    (headerAddress + 5) [markIncomplete]

theorem failedMemory_wf {m : List (Nat × Byte)} {l : List Byte} (hm : memoryWf m = true) :
    memoryWf (failedMemory m l) = true :=
  memoryWrite_wf _ _ _ (memoryWrite_wf _ _ _ (memoryWrite_wf _ _ _ hm))

theorem failedMemory_mark {m : List (Nat × Byte)} {l : List Byte} (hm : memoryWf m = true) :
    memoryRead (failedMemory m l) (headerAddress + 5) = markIncomplete :=
  memoryRead_memoryWrite_inside _ _ _ 0 (memoryWrite_wf _ _ _ (memoryWrite_wf _ _ _ hm)) (by simp)

theorem failedMemory_marker {m : List (Nat × Byte)} {l : List Byte} (hm : memoryWf m = true) :
    be32At (memoryRun 16 headerAddress (failedMemory m l)) 0 = imageMarker := by
  have hm' := memoryWrite_wf m headerAddress l hm
  have hrun := memoryRun_memoryWrite (memoryWrite m headerAddress l) headerAddress (beBytes 4 imageMarker.toNat) hm'
  rw [beBytes_length] at hrun
  rw [be32At, slice_memoryRun (failedMemory_wf hm) (by omega), failedMemory,
    memoryRun_memoryWrite_outside _ _ _ _ _ (memoryWrite_wf _ _ _ hm') (.inl (by omega)), hrun, beNat_beBytes]
  rfl

theorem failedMemory_outside {m : List (Nat × Byte)} {l : List Byte} {a n : Nat} (hm : memoryWf m = true)
    (hl : l.length = 16 + n) (ha : a < headerAddress ∨ headerAddress + 16 + n ≤ a) :
    memoryRead (failedMemory m l) a = memoryRead m a := by
  have hm' := memoryWrite_wf m headerAddress l hm
  rw [failedMemory, memoryRead_memoryWrite_outside _ _ _ _ (memoryWrite_wf _ _ _ hm'),
    memoryRead_memoryWrite_outside _ _ _ _ hm', memoryRead_memoryWrite_outside _ _ _ _ hm]
  · rw [hl]
    omega
  · rw [beBytes_length]
    omega
  · simp only [List.length_singleton]
    omega

theorem readBack_length (misread : List (Nat × Byte)) (a : Nat) (l : List Byte) :
    (readBack misread a l).length = l.length := by
  induction l generalizing a with
  | nil => rfl
  | cons b rest ih => simp [readBack, ih]

/-- The image a SAVE writes before its read-back. -/
def savedImage (run : SaveRun) : List Byte :=
  headerBytes markIncomplete (bodyBytes run.settings run.bank) ++ bodyBytes run.settings run.bank

theorem savedImage_length (run : SaveRun) : (savedImage run).length = 16 + bodyLength := by
  rw [savedImage, List.length_append, headerBytes_length, bodyBytes_length]

/-- A record made before a SAVE is ended, or after. -/
theorem record_endSave (e : EventRecord) (q : SaveResult) (m : List (Nat × Byte)) :
    { s.record e with save := none, lastSave := q, memory := m } =
      { s with save := none, lastSave := q, memory := m }.record e := by
  unfold State.record
  split <;> rfl

theorem record_expireSave (e : EventRecord) (q : SaveResult) (m : List (Nat × Byte)) (f : Nat) :
    { s.record e with save := none, lastSave := q, memory := m, freeValues := f } =
      { s with save := none, lastSave := q, memory := m, freeValues := f }.record e := by
  unfold State.record
  split <;> rfl

theorem endSave_of_match {run : SaveRun} {misread : List (Nat × Byte)} (hs : s.save = some run)
    (h : readBackMatches misread headerAddress (savedImage run) = true) :
    endSave s misread =
      { s with
        save := none
        lastSave := .done
        memory := memoryWrite s.memory headerAddress
          (headerBytes markComplete (bodyBytes run.settings run.bank) ++ bodyBytes run.settings run.bank) }.record
        (saveRecord s .saveDone run) := by
  rw [endSave, hs]
  exact (if_pos (.inr h)).trans (record_endSave _ _ _)

theorem endSave_of_mismatch {run : SaveRun} {misread : List (Nat × Byte)} (hs : s.save = some run)
    (h : readBackMatches misread headerAddress (savedImage run) = false) :
    endSave s misread =
      { s with
        save := none
        lastSave := .failed
        memory := failedMemory s.memory (readBack misread headerAddress (savedImage run)) }.record
        (saveRecord s .saveFailed run) := by
  have hno : ¬ (misread = [] ∨ readBackMatches misread headerAddress (savedImage run) = true) := by
    rintro (rfl | h')
    · rw [readBackMatches_nil] at h
      cases h
    · rw [h] at h'
      cases h'
  rw [endSave, hs]
  exact (if_neg hno).trans (record_endSave _ _ _)

/-- Settles O12. -/
theorem saveEndLeavesTheImage : Obligations.SaveEndLeavesTheImage := by
  have hexec : ∀ dt misread s, exec (.saveEnd dt misread) s =
      .next (noticeAfter (s.elapse dt) (endSave (s.elapse dt) misread)) := fun _ _ _ => rfl
  constructor
  · intro dt misread s hnone
    rw [hexec, endSave, hnone]
    exact congrArg _ (noticeAfter_self _)
  · intro dt misread s run hrun hm
    rw [hexec]
    generalize s.elapse dt = u at hrun hm
    refine ⟨_, rfl, fun h => ?_, fun h => ?_, fun a ha => ?_⟩
    · rw [endSave_of_match hrun h, noticeAfter_memory, record_memory]
      exact ⟨image_reads_back _ _ _ _ hm, rfl⟩
    · rw [endSave_of_mismatch hrun h, noticeAfter_memory, record_memory]
      exact ⟨failedMemory_mark hm, failedMemory_marker hm, rfl⟩
    · rw [noticeAfter_memory]
      cases h : readBackMatches misread headerAddress (savedImage run)
      · rw [endSave_of_mismatch hrun h, record_memory]
        exact failedMemory_outside hm ((readBack_length _ _ _).trans (savedImage_length run)) ha
      · rw [endSave_of_match hrun h, record_memory]
        refine memoryRead_memoryWrite_outside _ _ _ _ hm (ha.imp_right fun ha => ?_)
        rw [List.length_append, headerBytes_length, bodyBytes_length]
        exact ha

/-- Settles O13. -/
theorem saveTimeoutFailsTheSave : Obligations.SaveTimeoutFailsTheSave := by
  intro dt s
  have hexec : exec (.saveTimeout dt) s = .next (noticeAfter (s.elapse dt) (saveExpire (s.elapse dt))) := rfl
  rw [hexec]
  generalize s.elapse dt = u
  constructor
  · intro run hrun hlimit hm
    have hexpire : saveExpire u = { u with
        save := none
        lastSave := .failed
        memory := unfinishedMemory u run
        freeValues := u.freeValues + 1 }.record (saveRecord u .saveFailed run) := by
      rw [saveExpire, hrun]
      exact (if_pos hlimit).trans (record_expireSave _ _ _ _)
    refine ⟨_, rfl, ?_, fun a ha => ?_⟩
    · rw [hexpire, noticeAfter_memory, noticeAfter_freeValues, record_memory, record_freeValues]
      rfl
    · rw [hexpire, noticeAfter_memory, record_memory]
      refine memoryRead_memoryWrite_outside _ _ _ _ hm (ha.imp_right fun ha => ?_)
      rw [List.length_take, bodyBytes_length]
      omega
  · intro h
    have hexpire : saveExpire u = u := by
      rcases h with h | ⟨run, hrun, hlimit⟩
      · rw [saveExpire, h]
      · rw [saveExpire, hrun]
        exact if_neg (Nat.not_le.mpr hlimit)
    rw [hexpire, noticeAfter_self]

end Sys2Proof.Proofs.ResetAndSave
end

section
/-! Windows and Download Records closed in a row, as the state that is left and the records made (O28 to O34). -/

namespace Sys2Proof.Proofs.Expiries

open Sys2Proof Sys2Proof.Machine Sys2Proof.Claims Sys2Proof.Laws Sys2Proof.Proofs Sys2Proof.Proofs.Changes
open Sys2Proof.Proofs.ResetAndSave

variable {s u w : State}

/-! ### Records in their order -/

@[simp] theorem addRecords_nil (s : State) : addRecords s [] = s := rfl

@[simp] theorem addRecords_cons (s : State) (e : EventRecord) (l : List EventRecord) :
    addRecords s (e :: l) = addRecords (s.record e) l := rfl

theorem addRecords_append (s : State) (l k : List EventRecord) :
    addRecords s (l ++ k) = addRecords (addRecords s l) k := List.foldl_append

/-- What a list of records keeps: they add to the Event Queue and the overflow flag alone. -/
theorem addRecords_frame (s : State) (l : List EventRecord) :
    ∃ v o, addRecords s l = { s with events := v, overflow := o } := by
  induction l generalizing s with
  | nil => exact ⟨s.events, s.overflow, rfl⟩
  | cons e rest ih =>
    obtain ⟨v, o, h⟩ := record_frame s e
    obtain ⟨v', o', h'⟩ := ih (s.record e)
    exact ⟨v', o', by rw [addRecords_cons, h', h]⟩

@[simp] theorem addRecords_guards (s : State) (l : List EventRecord) : (addRecords s l).guards = s.guards := by
  obtain ⟨v, o, h⟩ := addRecords_frame s l
  rw [h]

@[simp] theorem addRecords_loads (s : State) (l : List EventRecord) : (addRecords s l).loads = s.loads := by
  obtain ⟨v, o, h⟩ := addRecords_frame s l
  rw [h]

@[simp] theorem addRecords_clock (s : State) (l : List EventRecord) : (addRecords s l).clock = s.clock := by
  obtain ⟨v, o, h⟩ := addRecords_frame s l
  rw [h]

@[simp] theorem addRecords_alert (s : State) (l : List EventRecord) : (addRecords s l).alert = s.alert := by
  obtain ⟨v, o, h⟩ := addRecords_frame s l
  rw [h]

@[simp] theorem addRecords_activeBank (s : State) (l : List EventRecord) :
    (addRecords s l).activeBank = s.activeBank := by
  obtain ⟨v, o, h⟩ := addRecords_frame s l
  rw [h]
  rfl

/-- The fields that windows, scores and loads stand in. -/
def State.slots (s : State) (g : Vector (Option SlotGuard) 16) (v : Vector (Option Download) 4) (a : Bool) : State :=
  { s with guards := g, loads := v, alert := a }

theorem record_slots (s : State) (e : EventRecord) (g : Vector (Option SlotGuard) 16)
    (v : Vector (Option Download) 4) (a : Bool) :
    State.slots (s.record e) g v a = (State.slots s g v a).record e := by
  unfold State.record State.slots
  split <;> rfl

/-- Records made before the guards, loads and ALERT change, or after. -/
theorem addRecords_slots (s : State) (l : List EventRecord) (g : Vector (Option SlotGuard) 16)
    (v : Vector (Option Download) 4) (a : Bool) :
    State.slots (addRecords s l) g v a = addRecords (State.slots s g v a) l := by
  induction l generalizing s with
  | nil => rfl
  | cons e rest ih => rw [addRecords_cons, ih, record_slots, addRecords_cons]

theorem setGuard_eq_slots (s : State) (i : Fin 16) (g : Option SlotGuard) :
    s.setGuard i g = State.slots s (s.guards.set i g) s.loads s.alert := rfl

theorem setLoad_eq_slots (s : State) (d : Fin 4) (r : Option Download) :
    s.setLoad d r = State.slots s s.guards (s.loads.set d r) s.alert := rfl

/-! ### Download Records aborted -/

/-- A list has one entry that a function answers for, or none. -/
theorem filterMap_of_only {α β : Type} {l : List α} (hl : l.Nodup) {d : α} (hd : d ∈ l) {f : α → Option β}
    (hf : ∀ e ∈ l, e ≠ d → f e = none) : l.filterMap f = (f d).toList := by
  obtain ⟨pre, post, rfl⟩ := List.append_of_mem hd
  obtain ⟨-, hpost, hdisjoint⟩ := List.nodup_append.mp hl
  have hpre : pre.filterMap f = [] := List.filterMap_eq_nil_iff.mpr fun e he =>
    hf e (List.mem_append_left _ he) (hdisjoint e he d List.mem_cons_self)
  have hrest : post.filterMap f = [] := List.filterMap_eq_nil_iff.mpr fun e he =>
    hf e (List.mem_append_right _ (List.mem_cons_of_mem _ he)) fun h => (List.nodup_cons.mp hpost).1 (h ▸ he)
  rw [List.filterMap_append, hpre, List.filterMap_cons]
  cases f d <;> simp [hrest]

/-- The LOADING record of a slot. -/
def LoadingOf (u : State) (i : Fin 16) (d : Fin 4) (r : Download) : Prop :=
  u.loads[d] = some r ∧ r.controller = i ∧ r.state = .loading

theorem loadsWithout_getElem (u : State) (l : List (Fin 16)) (d : Fin 4) :
    (loadsWithout u l)[d] = match u.loads[d] with
      | some r => if r.controller ∈ l ∧ r.state = .loading then none else some r
      | none => none :=
  Vector.getElem_ofFn d.isLt

theorem guardsWith_getElem (u : State) (l : List (Fin 16)) (g : GuardState) (i : Fin 16) :
    (guardsWith u l g)[i] = if i ∈ l then u.guards[i].map (fun x => { x with state := g }) else u.guards[i] :=
  Vector.getElem_ofFn i.isLt

/-- Vectors that agree at every index are equal. -/
theorem vector_ext {α : Type} {n : Nat} {x y : Vector α n} (h : ∀ i : Fin n, x[i] = y[i]) : x = y :=
  Vector.ext fun i hi => h ⟨i, hi⟩

theorem ofFn_get {α : Type} {n : Nat} (f : Fin n → α) (i : Fin n) : (Vector.ofFn f)[i] = f i :=
  Vector.getElem_ofFn i.isLt

theorem loadsWithout_of_none {i : Fin 16} (h : ∀ d r, ¬ LoadingOf u i d r) : loadsWithout u [i] = u.loads := by
  refine vector_ext fun d => ?_
  rw [loadsWithout_getElem]
  cases hr : u.loads[d] with
  | none => rfl
  | some r => exact if_neg fun ⟨hi, hl⟩ => h d r ⟨hr, List.mem_singleton.mp hi, hl⟩

theorem windowAborts_of_none {i : Fin 16} (h : ∀ d r, ¬ LoadingOf u i d r) : windowAborts u i = [] := by
  refine List.filterMap_eq_nil_iff.mpr fun d _ => ?_
  cases hr : u.loads[d] with
  | none => rfl
  | some r => exact if_neg fun ⟨hi, hl⟩ => h d r ⟨hr, hi, hl⟩

theorem loadsWithout_of_loading {i : Fin 16} {d : Fin 4} {r : Download} (hone : OneLoadEach u)
    (h : LoadingOf u i d r) : loadsWithout u [i] = u.loads.set d none := by
  obtain ⟨hr, hi, hl⟩ := h
  refine vector_ext fun e => ?_
  have hset := Invariants.setLoad_get u d e none
  rw [loadsWithout_getElem]
  refine Eq.trans ?_ hset.symm
  by_cases he : d = e
  · subst he
    rw [hr, if_pos rfl]
    exact if_pos ⟨List.mem_singleton.mpr hi, hl⟩
  · rw [if_neg he]
    cases hq : u.loads[e] with
    | none => rfl
    | some q => exact if_neg fun ⟨hqi, _⟩ => he (hone d e r q hr hq (hi.trans (List.mem_singleton.mp hqi).symm))

theorem windowAborts_of_loading {i : Fin 16} {d : Fin 4} {r : Download} (hone : OneLoadEach u)
    (h : LoadingOf u i d r) : windowAborts u i = [abortRecord u r .window] := by
  obtain ⟨hr, rfl, hl⟩ := h
  rw [windowAborts, filterMap_of_only (List.nodup_finRange 4) (List.mem_finRange d)]
  · rw [hr]
    exact congrArg Option.toList (if_pos ⟨rfl, hl⟩)
  · intro e _ he
    cases hq : u.loads[e] with
    | none => rfl
    | some q => exact if_neg fun ⟨hqi, _⟩ => he (hone e d q r hq hr hqi)

theorem abortLoad_of_some {d : Fin 4} {r : Download} {reason : Reason} (h : s.loads[d] = some r) :
    abortLoad s d reason = (s.setLoad d none).record (abortRecord s r reason) := by
  rw [abortLoad, h]

theorem abortLoad_of_none {d : Fin 4} {reason : Reason} (h : s.loads[d] = none) : abortLoad s d reason = s := by
  rw [abortLoad, h]

/-- A window closure's report aborts the slot's LOADING record (R97, R124). -/
theorem abortForWindow_eq (hone : OneLoadEach s) (i : Fin 16) :
    abortForWindow s i = addRecords (State.slots s s.guards (loadsWithout s [i]) s.alert) (windowAborts s i) := by
  have hquiet : (∀ d r, ¬ LoadingOf s i d r) →
      addRecords (State.slots s s.guards (loadsWithout s [i]) s.alert) (windowAborts s i) = s := fun h => by
    rw [loadsWithout_of_none h, windowAborts_of_none h]
    rfl
  unfold abortForWindow
  split
  · next hnone =>
    exact (hquiet fun d r ⟨hr, hi, _⟩ => loadOf_eq_none hnone d r hr hi).symm
  · next d hd =>
    obtain ⟨r, hr, hi⟩ := loadOf_eq_some hd
    rw [hr]
    by_cases hl : r.state = .loading
    · have hload : LoadingOf s i d r := ⟨hr, hi, hl⟩
      rw [loadsWithout_of_loading hone hload, windowAborts_of_loading hone hload]
      exact (if_pos hl).trans (abortLoad_of_some hr)
    · refine (if_neg hl).trans (hquiet fun e q ⟨hq, hqi, hql⟩ => ?_).symm
      obtain rfl := hone d e r q hr hq (hi.trans hqi.symm)
      obtain rfl := Option.some.inj (hr.symm.trans hq)
      exact hl hql

/-! ### Windows closed -/

theorem windowsClosed_eq (u : State) (l : List (Fin 16)) (reason : Reason) (source : Option MacAddress) :
    windowsClosed u l reason source =
      addRecords (State.slots u (guardsWith u l .normal) (loadsWithout u l) u.alert)
        (l.flatMap (fun i => closedRecord u reason source i :: windowAborts u i)) := rfl

theorem inWindow_iff {i : Fin 16} :
    inWindow s i = true ↔ ∃ g d, s.guards[i] = some g ∧ g.state = .window d := by
  rw [Guards.inWindow_eq_true_iff]
  constructor
  · rintro ⟨d, h⟩
    obtain ⟨g, hg, hd⟩ := Guards.guardOf_eq_some_iff.mp h
    exact ⟨g, d, hg, hd⟩
  · rintro ⟨g, d, hg, hd⟩
    exact ⟨d, Guards.guardOf_eq_some_iff.mpr ⟨g, hg, hd⟩⟩

theorem guardsWith_singleton {i : Fin 16} {x : SlotGuard} {g : GuardState} (h : u.guards[i] = some x) :
    guardsWith u [i] g = u.guards.set i (some { x with state := g }) := by
  refine vector_ext fun j => ?_
  rw [guardsWith_getElem]
  refine Eq.trans ?_ (Time.setGuard_get u i j _).symm
  by_cases hj : i = j
  · subst hj
    rw [if_pos (List.mem_singleton_self i), if_pos rfl, h]
    rfl
  · rw [if_neg hj, if_neg fun hm => hj (List.mem_singleton.mp hm).symm]

/-- One window closed, for a reason other than POLICY (R97). -/
theorem closeWindow_eq (hone : OneLoadEach s) {i : Fin 16} (hi : inWindow s i = true) {reason : Reason}
    (hreason : reason ≠ .policy) (source : Option MacAddress) :
    closeWindow s i reason source = windowsClosed s [i] reason source := by
  obtain ⟨g, d, hg, hd⟩ := inWindow_iff.mp hi
  have hstate : withGuardState s i .normal = State.slots s (guardsWith s [i] .normal) s.loads s.alert := by
    rw [withGuardState, hg, guardsWith_singleton hg]
    rfl
  have hclose : closeWindow s i reason source =
      abortForWindow ((State.slots s (guardsWith s [i] .normal) s.loads s.alert).record
        (closedRecord s reason source i)) i := by
    rw [closeWindow, if_pos hi, if_neg hreason, hstate]
    rfl
  rw [hclose, abortForWindow_eq (by simpa [OneLoadEach, State.slots] using hone), record_slots, windowsClosed_eq,
    List.flatMap_singleton, addRecords_cons]
  simp only [windowAborts, loadsWithout, record_loads, record_guards, record_clock, record_alert, State.slots]

/-- What is left of the loads after slots are closed, and others. -/
theorem loadsWithout_append {v : State} {l k : List (Fin 16)} (h : v.loads = loadsWithout u l) :
    loadsWithout v k = loadsWithout u (l ++ k) := by
  refine vector_ext fun d => ?_
  rw [loadsWithout_getElem, loadsWithout_getElem, h, loadsWithout_getElem]
  cases hr : u.loads[d] with
  | none => rfl
  | some r =>
    by_cases hl : r.controller ∈ l ∧ r.state = .loading
    · simp only [if_pos hl]
      exact (if_pos (hl.imp_left (List.mem_append_left k))).symm
    · simp only [if_neg hl]
      refine if_congr ?_ rfl rfl
      rw [List.mem_append, or_and_right]
      exact (or_iff_right hl).symm

theorem guardsWith_append {v : State} {l k : List (Fin 16)} {g : GuardState} (h : v.guards = guardsWith u l g) :
    guardsWith v k g = guardsWith u (l ++ k) g := by
  refine vector_ext fun i => ?_
  rw [guardsWith_getElem, guardsWith_getElem, h, guardsWith_getElem]
  cases hr : u.guards[i] with
  | none => simp
  | some x => by_cases hl : i ∈ l <;> by_cases hk : i ∈ k <;> simp [hl, hk]

/-- The aborts of a slot are not touched when others are closed. -/
theorem windowAborts_loadsWithout {v : State} {l : List (Fin 16)} {i : Fin 16} (h : v.loads = loadsWithout u l)
    (hclock : v.clock = u.clock) (hi : i ∉ l) : windowAborts v i = windowAborts u i := by
  unfold windowAborts
  refine congrArg (fun f => (List.finRange 4).filterMap f) (funext fun d => ?_)
  rw [h, loadsWithout_getElem, hclock]
  cases hr : u.loads[d] with
  | none => rfl
  | some r =>
    by_cases hl : r.controller ∈ l ∧ r.state = .loading
    · simp only [if_pos hl]
      exact (if_neg fun ⟨hri, _⟩ => hi (hri ▸ hl.1)).symm
    · simp only [if_neg hl]

theorem inWindow_congr {v : State} {i : Fin 16} (h : v.guards[i] = u.guards[i]) : inWindow v i = inWindow u i := by
  unfold inWindow guardOf
  rw [h]

theorem oneLoadEach_loadsWithout {v : State} {l : List (Fin 16)} (h : v.loads = loadsWithout u l)
    (hone : OneLoadEach u) : OneLoadEach v := by
  have hkept : ∀ (d : Fin 4) (r : Download), v.loads[d] = some r → u.loads[d] = some r := fun d r hr => by
    rw [h, loadsWithout_getElem] at hr
    split at hr
    · next q hq =>
      split at hr
      · cases hr
      · rw [hq, hr]
    · cases hr
  exact fun d e r q hr hq => hone d e r q (hkept d r hr) (hkept e q hq)

/-- Windows closed one after another are closed together, when no slot is met twice. -/
theorem windowsClosed_append {l k : List (Fin 16)} (hdisjoint : ∀ i ∈ k, i ∉ l) (reason : Reason)
    (source : Option MacAddress) :
    windowsClosed (windowsClosed u l reason source) k reason source = windowsClosed u (l ++ k) reason source := by
  set v := windowsClosed u l reason source with hv
  have hguards : v.guards = guardsWith u l .normal := by rw [hv, windowsClosed_eq, addRecords_guards]; rfl
  have hloads : v.loads = loadsWithout u l := by rw [hv, windowsClosed_eq, addRecords_loads]; rfl
  have hclock : v.clock = u.clock := by rw [hv, windowsClosed_eq, addRecords_clock]; rfl
  have halert : v.alert = u.alert := by rw [hv, windowsClosed_eq, addRecords_alert]; rfl
  have hrecords : k.flatMap (fun i => closedRecord v reason source i :: windowAborts v i) =
      k.flatMap (fun i => closedRecord u reason source i :: windowAborts u i) := by
    refine List.flatMap_congr fun i hi => ?_
    rw [windowAborts_loadsWithout hloads hclock (hdisjoint i hi), closedRecord, hclock, closedRecord]
  rw [windowsClosed_eq v, windowsClosed_eq u, hrecords, guardsWith_append hguards, loadsWithout_append hloads, halert,
    List.flatMap_append, addRecords_append, hv, windowsClosed_eq, addRecords_slots]
  rfl

theorem windowsClosed_nil (reason : Reason) (source : Option MacAddress) : windowsClosed u [] reason source = u := by
  have hguards : guardsWith u [] .normal = u.guards := vector_ext fun i => guardsWith_getElem u [] .normal i
  have hloads : loadsWithout u [] = u.loads := vector_ext fun d => by
    rw [loadsWithout_getElem]
    cases u.loads[d] with
    | none => rfl
    | some r => exact if_neg fun h => nomatch h.1
  rw [windowsClosed_eq, hguards, hloads]
  rfl

/-- The windows of a list of slots closed in their order (R97, R99). -/
theorem closeWindows_eq {l : List (Fin 16)} (hl : l.Nodup) {reason : Reason} (hreason : reason ≠ .policy)
    (source : Option MacAddress) (hone : OneLoadEach s) :
    closeWindows s l reason source = windowsClosed s (l.filter (inWindow s)) reason source := by
  induction l generalizing s with
  | nil => exact (windowsClosed_nil reason source).symm
  | cons i rest ih =>
    obtain ⟨hi, hrest⟩ := List.nodup_cons.mp hl
    have hfold : closeWindows s (i :: rest) reason source =
        closeWindows (closeWindow s i reason source) rest reason source := rfl
    by_cases hw : inWindow s i = true
    · have hloads : (windowsClosed s [i] reason source).loads = loadsWithout s [i] := by
        rw [windowsClosed_eq, addRecords_loads]
        rfl
      have hsame : rest.filter (inWindow (windowsClosed s [i] reason source)) = rest.filter (inWindow s) := by
        refine List.filter_congr fun j hj => inWindow_congr ?_
        rw [windowsClosed_eq, addRecords_guards]
        refine (guardsWith_getElem s [i] .normal j).trans (if_neg fun hm => hi ?_)
        rwa [← List.mem_singleton.mp hm]
      rw [hfold, closeWindow_eq hone hw hreason, ih hrest (oneLoadEach_loadsWithout hloads hone), hsame,
        windowsClosed_append, List.filter_cons_of_pos hw]
      · rfl
      · exact fun j hj hm => hi (List.mem_singleton.mp hm ▸ (List.mem_filter.mp hj).1)
    · have hclose : closeWindow s i reason source = s := by rw [closeWindow, if_neg hw]
      rw [hfold, hclose, ih hrest hone, List.filter_cons_of_neg hw]

/-! ### The expiries -/

/-- Settles O29. -/
theorem windowExpiryClosesTheWindow : Obligations.WindowExpiryClosesTheWindow := by
  intro dt slot s hone
  have hexec : exec (.windowExpiry dt slot) s =
      .next (noticeAfter (s.elapse dt) (windowExpire (s.elapse dt) slot)) := rfl
  rw [hexec]
  generalize s.elapse dt = u at hone ⊢
  congr 1
  unfold windowExpire
  cases hg : guardOf u slot with
  | none => exact noticeAfter_self u
  | some g =>
    cases g with
    | normal => exact noticeAfter_self u
    | frozen => exact noticeAfter_self u
    | window d =>
      by_cases hd : d ≤ u.clock
      · have hi : inWindow u slot = true := by rw [inWindow, hg]
        simp only [if_pos hd]
        rw [closeWindow_eq hone hi (by decide)]
      · simp only [if_neg hd]
        exact noticeAfter_self u

theorem permitExpire_of_not_due (h : ∀ e, u.permitPeriod = some e → u.clock < e) : permitExpire u = u := by
  unfold permitExpire
  split
  · next t ht => exact if_neg (Nat.not_le.mpr (h t ht))
  · rfl

/-- Settles O30. -/
theorem permitPinStartsAndCancelsThePeriod : Obligations.PermitPinStartsAndCancelsThePeriod := by
  have hexec : ∀ dt high s, exec (.chgPermitPinChange dt high) s = .next (changePermit (s.elapse dt) high) :=
    fun _ _ _ => rfl
  have hpin : ∀ (v : State) (high : Bool), v.chgPermit ≠ high → permitPin v high =
      { v with
        chgPermit := high
        permitPeriod := if v.resetN = true ∧ high ≠ v.permit then some (v.clock + 20) else none } :=
    fun v high h => if_neg (Ne.symm h)
  constructor
  · intro dt high s hdue
    rw [hexec]
    generalize s.elapse dt = u at hdue ⊢
    by_cases h : u.chgPermit = high
    · rw [changePermit, if_pos h.symm, if_pos h]
    · have hexpire : expire .permit u = u :=
        (congrArg (noticeAfter u) (permitExpire_of_not_due hdue)).trans (noticeAfter_self u)
      rw [changePermit, if_neg (Ne.symm h), if_neg h, hexpire, hpin u high h]
  · intro dt high s w hw
    rw [hexec]
    obtain rfl : expire .permit (s.elapse dt) = w := by cases hw; rfl
    by_cases h : (s.elapse dt).chgPermit = high
    · rw [changePermit, if_pos h.symm, if_pos h]
    · rw [changePermit, if_neg (Ne.symm h), if_neg h, hpin _ high (by rwa [expire_chgPermit])]

theorem windowsClosed_permit (l : List (Fin 16)) (reason : Reason) (source : Option MacAddress) (p : Bool)
    (t : Option Nat) :
    windowsClosed { u with permit := p, permitPeriod := t } l reason source =
      { windowsClosed u l reason source with permit := p, permitPeriod := t } := by
  have hrecords : ∀ (v : State) (k : List EventRecord),
      addRecords { v with permit := p, permitPeriod := t } k =
        { addRecords v k with permit := p, permitPeriod := t } := fun v k => by
    induction k generalizing v with
    | nil => rfl
    | cons e rest ih =>
      have hrecord : State.record { v with permit := p, permitPeriod := t } e =
          { v.record e with permit := p, permitPeriod := t } := by
        unfold State.record
        split <;> rfl
      rw [addRecords_cons, hrecord, ih, addRecords_cons]
  rw [windowsClosed_eq, windowsClosed_eq]
  exact hrecords (State.slots u (guardsWith u l .normal) (loadsWithout u l) u.alert) _

/-- The filtered permit takes a level, and the period ends. -/
def permitTaken (u : State) (p : Bool) : State := { u with permit := p, permitPeriod := none }

/-- Settles O31. -/
theorem permitLossClosesEveryWindow : Obligations.PermitLossClosesEveryWindow := by
  intro dt s hone
  have hexec : exec (.permitFilterExpiry dt) s = .next (noticeAfter (s.elapse dt) (permitExpire (s.elapse dt))) := rfl
  rw [hexec]
  generalize s.elapse dt = u at hone ⊢
  constructor
  · intro hdue
    rw [permitExpire_of_not_due hdue, noticeAfter_self]
  · intro e he hdue
    have hexpire : permitExpire u =
        if u.chgPermit = true then permitTaken u u.chgPermit else closeWindows (permitTaken u u.chgPermit) allSlots .permit none := by
      rw [permitExpire, he]
      exact if_pos hdue
    rw [hexpire]
    by_cases hp : u.chgPermit = true
    · rw [if_pos hp, if_pos hp]
      exact congrArg Host.Outcome.next ((noticeAfter_of_sameEvents rfl).trans (congrArg (permitTaken u) hp))
    · have hclose := closeWindows_eq (s := permitTaken u u.chgPermit) (List.nodup_finRange 16) (reason := .permit) (by decide)
        none hone
      rw [if_neg hp, if_neg hp, allSlots, hclose]
      refine congrArg Host.Outcome.next (congrArg (noticeAfter u) ?_)
      refine (windowsClosed_permit _ _ _ _ _).trans ?_
      rw [Bool.eq_false_iff.mpr hp]
      rfl

/-- Settles O33. -/
theorem idleExpiryAbortsTheRecord : Obligations.IdleExpiryAbortsTheRecord := by
  intro dt d s
  have hexec : exec (.idleExpiry dt d) s = .next (noticeAfter (s.elapse dt) (idleExpire (s.elapse dt) d)) := rfl
  rw [hexec]
  generalize s.elapse dt = u
  constructor
  · intro hdue
    have hexpire : idleExpire u d = u := by
      unfold idleExpire
      split
      · rfl
      · next r hr => exact if_neg (Nat.not_le.mpr (hdue r hr))
    rw [hexpire, noticeAfter_self]
  · intro r hr hdue
    rw [idleExpire, hr]
    simp only [if_pos hdue]
    rw [abortLoad_of_some hr]
    rfl

/-- Settles O34. -/
theorem lockoutEndLiftsTheLockout : Obligations.LockoutEndLiftsTheLockout := by
  intro dt s
  have hexec : exec (.lockoutEnd dt) s = .next (noticeAfter (s.elapse dt) (lockoutExpire (s.elapse dt))) := rfl
  rw [hexec]
  generalize s.elapse dt = u
  obtain ⟨e, h⟩ := lockoutExpire_frame u
  have hquiet : noticeAfter u (lockoutExpire u) = lockoutExpire u := noticeAfter_of_sameEvents (by rw [h])
  rw [hquiet]
  rfl

end Sys2Proof.Proofs.Expiries
end

section
/-! The expiry of an Outstanding entry and that of the interval timer (O28, O32). -/

namespace Sys2Proof.Proofs.Scores

open Sys2Proof Sys2Proof.Machine Sys2Proof.Claims Sys2Proof.Laws Sys2Proof.Proofs Sys2Proof.Proofs.Changes
open Sys2Proof.Proofs.ResetAndSave Sys2Proof.Proofs.Expiries

variable {s u w : State}

/-! ### Reports on load-kind entries (R122) -/

/-- A negative or timeout report, as the statements give it. -/
theorem applyReport_fails (s : State) (slot : Fin 16) (d : Fin 4) (kind : EntryKind) :
    applyReport s slot d kind false = reportFails s slot kind d := by
  unfold applyReport reportFails
  cases hr : s.loads[d] with
  | none => rfl
  | some r =>
    by_cases hslot : r.controller = slot
    · subst hslot
      simp only [ne_eq, not_true_eq_false, if_false, if_true]
      cases kind <;> cases hstate : r.state
      case begin.loading => exact abortLoad_of_some hr
      case segment.loading =>
        have hleft : (⟨r.retryAllowance.val - 1, by omega⟩ : Fin 4) = 0 ↔ r.retryAllowance.val ≤ 1 := by
          rw [Fin.ext_iff]
          exact Nat.sub_eq_zero_iff_le
        simp only [Bool.false_eq_true, if_false, hleft]
        by_cases hlast : r.retryAllowance.val ≤ 1
        · rw [if_pos hlast, if_pos hlast]
          refine (abortLoad_of_some
            (r := { r with state := .loading, retryAllowance := ⟨r.retryAllowance.val - 1, by omega⟩ }) ?_).trans ?_
          · rw [Invariants.setLoad_get, if_pos rfl]
          · simp [State.setLoad, abortRecord]
        · rw [if_neg hlast, if_neg hlast]
          have hsub : (⟨r.retryAllowance.val - 1, by omega⟩ : Fin 4) = r.retryAllowance - 1 := by
            have hle : (1 : Fin 4) ≤ r.retryAllowance := by rw [Fin.le_def]; exact Nat.le_of_not_le fun h => hlast (by omega)
            exact Fin.ext (Fin.sub_val_of_le hle).symm
          rw [hsub]
          rfl
      all_goals rfl
    · simp only [ne_eq, hslot, not_false_eq_true, if_true, if_false]

/-- A positive report, as the statements give it. -/
theorem applyReport_passes (s : State) (slot : Fin 16) (d : Fin 4) (kind : EntryKind) :
    applyReport s slot d kind true = reportPasses s slot kind d := by
  unfold applyReport reportPasses
  cases hr : s.loads[d] with
  | none => rfl
  | some r =>
    by_cases hslot : r.controller = slot
    · subst hslot
      simp only [ne_eq, not_true_eq_false, if_false, if_true]
      cases kind <;> cases hstate : r.state <;> rfl
    · simp only [ne_eq, hslot, not_false_eq_true, if_true, if_false]

/-- Settles O28. -/
theorem responseTimeoutEndsTheEntry : Obligations.ResponseTimeoutEndsTheEntry := by
  intro dt slot tag s
  have hexec : exec (.responseTimeout dt slot tag) s =
      .next (noticeAfter (s.elapse dt) (responseExpire (s.elapse dt) slot tag)) := rfl
  rw [hexec]
  generalize s.elapse dt = u
  constructor
  · intro h
    have hexpire : responseExpire u slot tag = u := by
      rcases h with h | ⟨e, he, hdue⟩
      · rw [responseExpire, h]
      · rw [responseExpire, he]
        exact if_neg (Nat.not_le.mpr hdue)
    rw [hexpire, noticeAfter_self]
  · intro e he hdue
    rw [responseExpire, he]
    simp only [if_pos hdue, applyReport_fails]
    cases e.kind <;> cases e.downloadSlot <;> rfl

/-! ### The interval timer (R101 to R104) -/

/-- The guard of a slot once it has been scored. -/
def scoredGuard (u : State) (i : Fin 16) (g : SlotGuard) : SlotGuard :=
  if g.state = .frozen then g
  else
    { state := if freezes u i then .frozen else g.state
      intervalCount := 0
      history := g.history.drop 1 ++ [g.intervalCount]
      lastAverage := newAverage u i g }

/-- The slots of a list, each scored. -/
def scoredGuards (u : State) (l : List (Fin 16)) : Vector (Option SlotGuard) 16 :=
  Vector.ofFn (fun i => if i ∈ l then u.guards[i].map (scoredGuard u i) else u.guards[i])

/-- The records a slot that freezes makes. -/
def freezeRecords (u : State) (i : Fin 16) : List EventRecord :=
  (if inWindow u i then closedRecord u .frozen none i :: windowAborts u i else []) ++
    [{ time := u.clock, kind := .frozen, slot := some i, extra := some (averageOf u i) }]

/-- The state after the slots of a list have been scored. -/
def scored (u : State) (l : List (Fin 16)) : State :=
  addRecords
    (State.slots u (scoredGuards u l) (loadsWithout u (l.filter (fun i => freezes u i && inWindow u i)))
      (u.alert || l.any (freezes u)))
    ((l.filter (freezes u)).flatMap (freezeRecords u))

theorem scoredGuards_getElem (u : State) (l : List (Fin 16)) (i : Fin 16) :
    (scoredGuards u l)[i] = if i ∈ l then u.guards[i].map (scoredGuard u i) else u.guards[i] :=
  Vector.getElem_ofFn i.isLt

theorem scoredGuards_singleton {i : Fin 16} {g : SlotGuard} (h : u.guards[i] = some g) :
    scoredGuards u [i] = u.guards.set i (some (scoredGuard u i g)) := by
  refine vector_ext fun j => ?_
  rw [scoredGuards_getElem]
  refine Eq.trans ?_ (Time.setGuard_get u i j _).symm
  by_cases hj : i = j
  · subst hj
    rw [if_pos (List.mem_singleton_self i), if_pos rfl, h]
    rfl
  · rw [if_neg hj, if_neg fun hm => hj (List.mem_singleton.mp hm).symm]

theorem loadsWithout_nil (u : State) : loadsWithout u [] = u.loads :=
  vector_ext fun d => by
    rw [loadsWithout_getElem]
    cases u.loads[d] with
    | none => rfl
    | some r => exact if_neg fun h => nomatch h.1

theorem scored_singleton_of_not_freezes {i : Fin 16} (h : freezes u i = false) :
    scored u [i] = State.slots u (scoredGuards u [i]) u.loads u.alert := by
  rw [scored, List.filter_cons_of_neg (by simp [h]), List.filter_cons_of_neg (by simp [h])]
  simp [h, loadsWithout_nil]

theorem freezes_eq {i : Fin 16} {g : SlotGuard} (hg : u.guards[i] = some g) (hused : slotUsed u.activeBank i = true)
    (hf : g.state ≠ .frozen) :
    freezes u i = true ↔ 0 < u.activeBank.controllers[i].freezeThreshold.toNat ∧
      u.activeBank.controllers[i].freezeThreshold.toNat ≤ newAverage u i g := by
  rw [freezes, hg]
  simp [hused, hf]

/-- The guard of a slot that is scored but not frozen. -/
def countedGuard (u : State) (i : Fin 16) (g : SlotGuard) : SlotGuard :=
  { g with history := g.history.drop 1 ++ [g.intervalCount], intervalCount := 0, lastAverage := newAverage u i g }

theorem scoreSlot_of_some {i : Fin 16} {g : SlotGuard} (hg : u.guards[i] = some g)
    (hused : slotUsed u.activeBank i = true) (hf : g.state ≠ .frozen) :
    scoreSlot u i = if freezes u i = true then freezeSlot (u.setGuard i (some (countedGuard u i g))) i (averageOf u i)
      else u.setGuard i (some (countedGuard u i g)) := by
  have haverage : averageOf u i = newAverage u i g := by rw [averageOf, hg]
  rw [scoreSlot, hg, haverage]
  refine (if_neg hf).trans (if_congr (freezes_eq hg hused hf).symm rfl rfl)

theorem record_alert_true (v : State) (e : EventRecord) :
    { v.record e with alert := true } = State.record { v with alert := true } e := by
  unfold State.record
  split <;> rfl

/-- A slot frozen: its window closed first (R103, R104). -/
theorem freezeSlot_eq {i : Fin 16} {g : SlotGuard} (hone : OneLoadEach s) (hg : s.guards[i] = some g) (average : Nat) :
    freezeSlot s i average =
      addRecords
        (State.slots s (s.guards.set i (some { g with state := .frozen }))
          (if inWindow s i = true then loadsWithout s [i] else s.loads) true)
        ((if inWindow s i = true then closedRecord s .frozen none i :: windowAborts s i else []) ++
          [{ time := s.clock, kind := .frozen, slot := some i, extra := some average }]) := by
  have hfreeze : ∀ (v : State) (x : SlotGuard), v.guards[i] = some x → freezeSlot s i average =
      ({ (withGuardState v i .frozen).record
          { time := (withGuardState v i .frozen).clock, kind := .frozen, slot := some i, extra := some average } with
        alert := true } : State) → freezeSlot s i average =
      (State.slots v (v.guards.set i (some { x with state := .frozen })) v.loads true).record
        { time := v.clock, kind := .frozen, slot := some i, extra := some average } := fun v x hx h => by
    have hstate : withGuardState v i .frozen = v.setGuard i (some { x with state := .frozen }) := by
      rw [withGuardState, hx]
    rw [h, hstate]
    exact record_alert_true _ _
  by_cases hw : inWindow s i = true
  · have hclose := closeWindow_eq hone hw (reason := .frozen) (by decide) none
    have hguards : (windowsClosed s [i] .frozen none).guards =
        s.guards.set i (some { g with state := .normal }) := by
      rw [windowsClosed_eq, addRecords_guards]
      exact guardsWith_singleton hg
    have hloads : (windowsClosed s [i] .frozen none).loads = loadsWithout s [i] := by
      rw [windowsClosed_eq, addRecords_loads]
      rfl
    have hclock : (windowsClosed s [i] .frozen none).clock = s.clock := by
      rw [windowsClosed_eq, addRecords_clock]
      rfl
    rw [hfreeze (windowsClosed s [i] .frozen none) { g with state := .normal }
      (by rw [hguards]; exact (Time.setGuard_get s i i _).trans (if_pos rfl)) (by rw [← hclose]; rfl), hguards, hloads,
      hclock, windowsClosed_eq, addRecords_slots, if_pos hw, if_pos hw, List.flatMap_singleton, addRecords_append]
    simp [State.slots]
  · have hclose : closeWindow s i .frozen none = s := by rw [closeWindow, if_neg hw]
    rw [hfreeze s g hg (by rw [freezeSlot, hclose]), if_neg hw, if_neg hw]
    rfl

/-- One slot scored (R102). -/
theorem scoreSlot_eq (hone : OneLoadEach u) {i : Fin 16} (hused : slotUsed u.activeBank i = true) :
    scoreSlot u i = scored u [i] := by
  have hquiet : (u.guards[i].map (scoredGuard u i) = u.guards[i]) → freezes u i = false → u = scored u [i] :=
    fun hsame hno => by
    have hguards : scoredGuards u [i] = u.guards := vector_ext fun j => by
      rw [scoredGuards_getElem]
      split
      · next hj =>
        obtain rfl := List.mem_singleton.mp hj
        exact hsame
      · rfl
    rw [scored_singleton_of_not_freezes hno, hguards]
    rfl
  cases hg : u.guards[i] with
  | none =>
    rw [scoreSlot, hg]
    exact hquiet (by rw [hg]; rfl) (by rw [freezes, hg])
  | some g =>
    by_cases hf : g.state = .frozen
    · rw [scoreSlot, hg]
      refine (if_pos hf).trans (hquiet ?_ ?_)
      · rw [hg, Option.map_some, scoredGuard, if_pos hf]
      · rw [freezes, hg]
        simp [hf]
    · rw [scoreSlot_of_some hg hused hf]
      cases hfreeze : freezes u i with
      | false =>
        rw [scored_singleton_of_not_freezes hfreeze, scoredGuards_singleton hg, scoredGuard, if_neg hf, hfreeze]
        rfl
      | true =>
        have hget : (u.setGuard i (some (countedGuard u i g))).guards[i] = some (countedGuard u i g) :=
          (Time.setGuard_get u i i _).trans (if_pos rfl)
        have hin : inWindow (u.setGuard i (some (countedGuard u i g))) i = inWindow u i := by
          unfold inWindow guardOf
          rw [hget, hg]
          rfl
        rw [if_pos rfl, freezeSlot_eq (s := u.setGuard i _) hone hget, hin, scored, List.filter_cons_of_pos hfreeze,
          List.filter_nil, List.flatMap_singleton, scoredGuards_singleton hg, scoredGuard, if_neg hf, hfreeze]
        have hset : (u.setGuard i (some (countedGuard u i g))).guards.set i
            (some { countedGuard u i g with state := .frozen }) =
            u.guards.set i (some
              { state := .frozen, intervalCount := 0, history := g.history.drop 1 ++ [g.intervalCount],
                lastAverage := newAverage u i g }) := by
          simp [State.setGuard, countedGuard]
        rw [hset]
        cases hw : inWindow u i with
        | false => simp [State.slots, State.setGuard, freezeRecords, hw, hfreeze, loadsWithout_nil]
        | true =>
          simp [State.slots, State.setGuard, freezeRecords, hw, hfreeze, closedRecord, windowAborts, loadsWithout]

theorem scored_guards (u : State) (l : List (Fin 16)) : (scored u l).guards = scoredGuards u l := by
  rw [scored, addRecords_guards]
  rfl

theorem scored_loads (u : State) (l : List (Fin 16)) :
    (scored u l).loads = loadsWithout u (l.filter (fun i => freezes u i && inWindow u i)) := by
  rw [scored, addRecords_loads]
  rfl

theorem scored_clock (u : State) (l : List (Fin 16)) : (scored u l).clock = u.clock := by
  rw [scored, addRecords_clock]
  rfl

theorem scored_alert (u : State) (l : List (Fin 16)) : (scored u l).alert = (u.alert || l.any (freezes u)) := by
  rw [scored, addRecords_alert]
  rfl

theorem scored_activeBank (u : State) (l : List (Fin 16)) : (scored u l).activeBank = u.activeBank := by
  rw [scored, addRecords_activeBank]
  rfl

theorem scored_guard_of_not_mem {l : List (Fin 16)} {i : Fin 16} (hi : i ∉ l) :
    (scored u l).guards[i] = u.guards[i] := by
  rw [scored_guards, scoredGuards_getElem, if_neg hi]

theorem newAverage_scored (l : List (Fin 16)) (i : Fin 16) (g : SlotGuard) :
    newAverage (scored u l) i g = newAverage u i g := by
  rw [newAverage, scored_activeBank, newAverage]

theorem freezes_scored {l : List (Fin 16)} {i : Fin 16} (hi : i ∉ l) : freezes (scored u l) i = freezes u i := by
  unfold freezes
  rw [scored_guard_of_not_mem hi]
  simp only [newAverage_scored, scored_activeBank]

theorem freezeRecords_scored {l : List (Fin 16)} {i : Fin 16} (hi : i ∉ l) :
    freezeRecords (scored u l) i = freezeRecords u i := by
  have haverage : averageOf (scored u l) i = averageOf u i := by
    unfold averageOf
    rw [scored_guard_of_not_mem hi]
    simp only [newAverage_scored]
  rw [freezeRecords, inWindow_congr (scored_guard_of_not_mem hi), haverage,
    windowAborts_loadsWithout (scored_loads u l) (scored_clock u l) fun h => hi (List.mem_filter.mp h).1, closedRecord,
    scored_clock]
  rfl

/-- Slots scored one after another are scored together, when no slot is met twice. -/
theorem scored_append {l k : List (Fin 16)} (hdisjoint : ∀ i ∈ k, i ∉ l) : scored (scored u l) k = scored u (l ++ k) := by
  have hguards : scoredGuards (scored u l) k = scoredGuards u (l ++ k) := vector_ext fun i => by
    rw [scoredGuards_getElem, scoredGuards_getElem]
    by_cases hk : i ∈ k
    · rw [if_pos hk, if_pos (List.mem_append_right l hk), scored_guard_of_not_mem (hdisjoint i hk)]
      refine congrArg (fun f => u.guards[i].map f) (funext fun g => ?_)
      rw [scoredGuard, newAverage_scored, freezes_scored (hdisjoint i hk), scoredGuard]
    · rw [if_neg hk, scored_guards, scoredGuards_getElem]
      exact if_congr (by simp [hk]) rfl rfl
  have hfreezes : k.filter (freezes (scored u l)) = k.filter (freezes u) :=
    List.filter_congr fun i hi => freezes_scored (hdisjoint i hi)
  have hclosed : k.filter (fun i => freezes (scored u l) i && inWindow (scored u l) i) =
      k.filter (fun i => freezes u i && inWindow u i) :=
    List.filter_congr fun i hi => by
      rw [freezes_scored (hdisjoint i hi), inWindow_congr (scored_guard_of_not_mem (hdisjoint i hi))]
  have hany : k.any (freezes (scored u l)) = k.any (freezes u) := by
    rw [Bool.eq_iff_iff, List.any_eq_true, List.any_eq_true]
    exact exists_congr fun i => and_congr_right fun hi => by rw [freezes_scored (hdisjoint i hi)]
  have hrecords : (k.filter (freezes u)).flatMap (freezeRecords (scored u l)) =
      (k.filter (freezes u)).flatMap (freezeRecords u) :=
    List.flatMap_congr fun i hi => freezeRecords_scored (hdisjoint i (List.mem_filter.mp hi).1)
  rw [scored.eq_1 (scored u l), hguards, hfreezes, hclosed, hany, hrecords, loadsWithout_append (scored_loads u l),
    scored_alert, Bool.or_assoc, ← List.any_append, ← List.filter_append, scored.eq_1 u l, addRecords_slots,
    ← addRecords_append, ← List.flatMap_append, ← List.filter_append]
  rfl

theorem scored_nil (u : State) : scored u [] = u := by
  have hguards : scoredGuards u [] = u.guards := vector_ext fun i => scoredGuards_getElem u [] i
  rw [scored, hguards]
  simp [loadsWithout_nil, State.slots]

theorem foldl_scoreSlot (hone : OneLoadEach u) {l : List (Fin 16)} (hl : l.Nodup)
    (hused : ∀ i ∈ l, slotUsed u.activeBank i = true) : l.foldl scoreSlot u = scored u l := by
  induction l generalizing u with
  | nil => exact (scored_nil u).symm
  | cons i rest ih =>
    obtain ⟨hi, hrest⟩ := List.nodup_cons.mp hl
    rw [List.foldl_cons, scoreSlot_eq hone (hused i List.mem_cons_self),
      ih (oneLoadEach_loadsWithout (scored_loads u [i]) hone) hrest, scored_append]
    · rfl
    · exact fun j hj hm => hi (List.mem_singleton.mp hm ▸ hj)
    · intro j hj
      rw [scored_activeBank]
      exact hused j (List.mem_cons_of_mem i hj)

theorem slotUsed_of_freezes {i : Fin 16} (h : freezes u i = true) : slotUsed u.activeBank i = true := by
  unfold freezes at h
  split at h
  · simp only [Bool.and_eq_true] at h
    exact h.1.1.1
  · cases h

/-- What holds of used slots alone is looked for among them, or among all. -/
theorem filter_usedSlots {b : Bank} {p : Fin 16 → Bool} (hp : ∀ i, p i = true → slotUsed b i = true) :
    (usedSlots b).filter p = (List.finRange 16).filter p := by
  rw [usedSlots, List.filter_filter]
  refine List.filter_congr fun i _ => ?_
  cases hi : p i with
  | false => rfl
  | true => rw [hp i hi]; rfl

theorem mem_usedSlots {b : Bank} {i : Fin 16} : i ∈ usedSlots b ↔ slotUsed b i = true := by
  simp [usedSlots, allSlots]

theorem nodup_usedSlots (b : Bank) : (usedSlots b).Nodup := (List.nodup_finRange 16).filter _

theorem any_usedSlots {b : Bank} {p : Fin 16 → Bool} (hp : ∀ i, p i = true → slotUsed b i = true) :
    (usedSlots b).any p = (List.finRange 16).any p := by
  rw [Bool.eq_iff_iff, List.any_eq_true, List.any_eq_true]
  simp only [mem_usedSlots, List.mem_finRange, true_and]
  exact exists_congr fun i => and_iff_right_of_imp (hp i)

theorem foldl_usedSlots (hone : OneLoadEach u) :
    (usedSlots u.activeBank).foldl scoreSlot u = scored u (usedSlots u.activeBank) :=
  foldl_scoreSlot hone (nodup_usedSlots _) fun _ => mem_usedSlots.mp

/-- Every used slot scored, with the slots that freeze looked for among all. -/
theorem scored_usedSlots (u : State) :
    scored u (usedSlots u.activeBank) =
      addRecords
        (State.slots u
          (Vector.ofFn (fun i =>
            if slotUsed u.activeBank i then u.guards[i].map (scoredGuard u i) else u.guards[i]))
          (loadsWithout u ((List.finRange 16).filter (fun i => freezes u i && inWindow u i)))
          (u.alert || (List.finRange 16).any (freezes u)))
        (((List.finRange 16).filter (freezes u)).flatMap (freezeRecords u)) := by
  have hguards : scoredGuards u (usedSlots u.activeBank) = Vector.ofFn (fun i =>
      if slotUsed u.activeBank i then u.guards[i].map (scoredGuard u i) else u.guards[i]) := vector_ext fun i => by
    rw [scoredGuards_getElem, ofFn_get]
    exact if_congr mem_usedSlots rfl rfl
  rw [scored, hguards, filter_usedSlots fun i => slotUsed_of_freezes, any_usedSlots fun i => slotUsed_of_freezes,
    filter_usedSlots fun i hi => slotUsed_of_freezes (Bool.and_eq_true_iff.mp hi).1]

theorem addRecords_interval (s : State) (l : List EventRecord) (t : Option Nat) :
    { addRecords s l with intervalNext := t } = addRecords { s with intervalNext := t } l := by
  induction l generalizing s with
  | nil => rfl
  | cons e rest ih =>
    have hrecord : { s.record e with intervalNext := t } = State.record { s with intervalNext := t } e := by
      unfold State.record
      split <;> rfl
    rw [addRecords_cons, ih, hrecord, addRecords_cons]

/-- Settles O32. -/
theorem intervalExpiryScoresEverySlot : Obligations.IntervalExpiryScoresEverySlot := by
  intro dt s hone
  have hexec : exec (.intervalExpiry dt) s = .next (noticeAfter (s.elapse dt) (intervalExpire (s.elapse dt))) := rfl
  rw [hexec]
  generalize s.elapse dt = u at hone ⊢
  constructor
  · intro hdue
    have hexpire : intervalExpire u = u := by
      unfold intervalExpire
      split
      · next t ht => exact if_neg (Nat.not_le.mpr (hdue t ht))
      · rfl
    rw [hexpire, noticeAfter_self]
  · intro e he hdue
    have hexpire : intervalExpire u = { (usedSlots u.activeBank).foldl scoreSlot u with intervalNext := some (e + 1000) } := by
      rw [intervalExpire, he]
      exact if_pos hdue
    rw [hexpire, foldl_usedSlots hone, scored_usedSlots]
    exact congrArg Host.Outcome.next (congrArg (noticeAfter u) (addRecords_interval _ _ _))

end Sys2Proof.Proofs.Scores
end

section
/-! The Port Units: link changes, the arbiter, and the frames that go no further (O14 to O17, O36). -/

namespace Sys2Proof.Proofs.Ports

open Sys2Proof Sys2Proof.Machine Sys2Proof.Claims Sys2Proof.Laws Sys2Proof.Proofs Sys2Proof.Proofs.Changes
open Sys2Proof.Proofs.ResetAndSave Sys2Proof.Proofs.Expiries Sys2Proof.Proofs.ManagementLink

variable {s u w : State}

/-! ### The arbiter (R6 to R8) -/

theorem grant_of_idle {ps : PortState}
    (h : ps.up = false ∨ ps.transmitter ≠ .free ∨ (ps.forwardQueue = [] ∧ ps.replyQueue = [])) : grant ps = ps := by
  rcases grant_cases ps with hsame | ⟨hup, hfree, hheads⟩
  · exact hsame
  · exfalso
    rcases h with h | h | ⟨hf, hr⟩
    · rw [hup] at h
      cases h
    · exact h hfree
    · rcases hheads with ⟨f, fs, hq, -⟩ | ⟨r, rs, hq, -⟩
      · rw [hf] at hq
        cases hq
      · rw [hr] at hq
        cases hq

theorem grant_forward {ps : PortState} (hup : ps.up = true) (hfree : ps.transmitter = .free) {f : List Byte}
    {fs : List (List Byte)} (hf : ps.forwardQueue = f :: fs) (hr : ps.replyQueue = [] ∨ ps.lastGrant = .reply) :
    grant ps = { ps with forwardQueue := fs, transmitter := .forward f, lastGrant := .forward } := by
  unfold grant
  rw [if_pos ⟨hup, hfree⟩, hf]
  rcases hr with hr | hr
  · rw [hr]
  · cases hq : ps.replyQueue <;> simp [hr]

theorem grant_reply {ps : PortState} (hup : ps.up = true) (hfree : ps.transmitter = .free) {r : Reply}
    {rs : List Reply} (hr : ps.replyQueue = r :: rs) (hf : ps.forwardQueue = [] ∨ ps.lastGrant = .forward) :
    grant ps = { ps with replyQueue := rs, transmitter := .reply r, lastGrant := .reply } := by
  unfold grant
  rw [if_pos ⟨hup, hfree⟩, hr]
  rcases hf with hf | hf
  · rw [hf]
  · cases hq : ps.forwardQueue <;> simp [hf]

/-- A port that makes no grant for a frame placed in a queue. -/
theorem placeForward_of_waiting {ps : PortState} {f : List Byte}
    (h : ps.up = false ∨ ps.transmitter ≠ .free ∨ ps.forwardQueue ≠ []) :
    placeForward ps f = { ps with forwardQueue := ps.forwardQueue ++ [f] } := by
  unfold placeForward
  dsimp only
  split
  · next hq => exact grant_of_idle (h.imp_right (Or.imp_right fun hn => absurd hq hn))
  · rfl

theorem placeReply_of_waiting {ps : PortState} {r : Reply}
    (h : ps.up = false ∨ ps.transmitter ≠ .free ∨ ps.replyQueue ≠ []) :
    placeReply ps r = { ps with replyQueue := ps.replyQueue ++ [r] } := by
  unfold placeReply
  dsimp only
  split
  · next hq => exact grant_of_idle (h.imp_right (Or.imp_right fun hn => absurd hq hn))
  · rfl

theorem placeForward_of_idle {ps : PortState} (f : List Byte) (hup : ps.up = true) (hfree : ps.transmitter = .free)
    (hf : ps.forwardQueue = []) (hr : ps.replyQueue = []) :
    placeForward ps f = { ps with transmitter := .forward f, lastGrant := .forward } := by
  unfold placeForward
  dsimp only
  rw [if_pos hf, grant_forward (ps := { ps with forwardQueue := ps.forwardQueue ++ [f] }) (fs := []) hup hfree
    (by rw [hf]; rfl) (.inl hr), hf]

theorem placeReply_of_idle {ps : PortState} (r : Reply) (hup : ps.up = true) (hfree : ps.transmitter = .free)
    (hf : ps.forwardQueue = []) (hr : ps.replyQueue = []) :
    placeReply ps r = { ps with transmitter := .reply r, lastGrant := .reply } := by
  unfold placeReply
  dsimp only
  rw [if_pos hr, grant_reply (ps := { ps with replyQueue := ps.replyQueue ++ [r] }) (rs := []) hup hfree
    (by rw [hr]; rfl) (.inl hf), hr]

/-- The reset that a port's change leads to is the one that would have been taken before it. -/
theorem resetPart_setPort (s : State) (p : Port) (ps : PortState) (high : Bool) :
    resetPart (s.setPort p ps) high = resetPart s high := by
  cases p <;> rfl

/-- Settles O16. -/
theorem transmissionCompleteFreesAndGrants : Obligations.TransmissionCompleteFreesAndGrants := by
  refine ⟨fun ps => ⟨grant_of_idle, fun hup hfree => ⟨fun f fs => grant_forward hup hfree,
    fun r rs => grant_reply hup hfree⟩⟩, fun ps f r => ⟨placeForward_of_waiting, placeReply_of_waiting,
    fun hup hfree hf hr => ⟨placeForward_of_idle f hup hfree hf hr, placeReply_of_idle r hup hfree hf hr⟩⟩, ?_⟩
  intro dt p s
  have hexec : exec (.transmissionComplete dt p) s = .next (completeTransmission (s.elapse dt) p) := rfl
  rw [hexec]
  generalize s.elapse dt = u
  refine ⟨fun h => ?_, fun f h => ?_, fun r h => ?_⟩
  · rw [completeTransmission, h]
  · rw [completeTransmission, h]
  · rw [completeTransmission, h]
    rcases reportReply_cases (u.setPort p (grant { u.port p with transmitter := .free })) r with ⟨hk, hr⟩ | ⟨hk, hr⟩
    · rw [if_neg hk]
      exact congrArg _ hr
    · rw [if_pos hk]
      exact congrArg _ (hr.trans (resetPart_setPort _ _ _ _))

/-! ### Link changes (R1, R2) -/

theorem setLink_self {p : Port} {high : Bool} (h : s.link p = high) : s.setLink p high = s := by
  subst h
  cases p <;> rfl

theorem noticeAfter_setLink (u w : State) (p : Port) (high : Bool) :
    noticeAfter (u.setLink p high) w = noticeAfter u w := by
  cases p <;> rfl

theorem port_setLink (u : State) (p q : Port) (high : Bool) : (u.setLink p high).port q = u.port q := by
  cases p <;> rfl

theorem changeLink_of_started {p : Port} {high : Bool} (hr : u.resetN = true) (hm : u.mode ≠ .starting)
    (hl : u.link p ≠ high) : changeLink u p high = linkFollows (u.setLink p high) p high := by
  rw [changeLink, if_neg (Ne.symm hl)]
  exact if_pos ⟨(setLink_resetN _ _ _).trans hr, fun h => hm ((setLink_mode _ _ _).symm.trans h)⟩

/-- Settles O15. -/
theorem linkUpMovesTheLinkStateAlone : Obligations.LinkUpMovesTheLinkStateAlone := by
  intro dt p s
  have hexec : ∀ high, exec (.linkChanged dt p high) s = .next (changeLink (s.elapse dt) p high) := fun _ => rfl
  simp only [hexec]
  generalize s.elapse dt = u
  refine ⟨fun hr hm hl => ?_, fun h high => ?_, fun high h => ?_⟩
  · rw [changeLink_of_started hr hm (by rw [hl]; decide), linkFollows, if_pos rfl, noticing, noticeAfter_setLink, portUp,
      port_setLink, linkRecord, setLink_clock]
    cases p <;> rfl
  · by_cases hl : u.link p = high
    · rw [changeLink, if_pos hl.symm, setLink_self hl]
    · rw [changeLink, if_neg (Ne.symm hl)]
      refine congrArg _ (if_neg ?_)
      rw [setLink_resetN, setLink_mode]
      rintro ⟨hr, hm⟩
      rcases h with h | h
      · rw [h] at hr
        cases hr
      · exact hm h
  · rw [changeLink, if_pos h.symm]

/-- Download Records aborted one after another (R124). -/
theorem foldl_abortLoad (reason : Reason) {l : List (Fin 4)} (hl : l.Nodup) (s : State) :
    l.foldl (fun s d => abortLoad s d reason) s =
      addRecords
        (State.slots s s.guards (Vector.ofFn (fun d => if d ∈ l then none else s.loads[d])) s.alert)
        (l.filterMap (fun d => s.loads[d].map (fun r => abortRecord s r reason))) := by
  induction l generalizing s with
  | nil =>
    have hloads : (Vector.ofFn (fun d : Fin 4 => if d ∈ ([] : List (Fin 4)) then none else s.loads[d])) = s.loads :=
      vector_ext fun d => (ofFn_get _ d).trans (if_neg List.not_mem_nil)
    rw [hloads]
    rfl
  | cons d rest ih =>
    obtain ⟨hd, hrest⟩ := List.nodup_cons.mp hl
    rw [List.foldl_cons]
    cases hr : s.loads[d] with
    | none =>
      have hloads : (Vector.ofFn (fun e => if e ∈ d :: rest then none else s.loads[e])) =
          Vector.ofFn (fun e => if e ∈ rest then none else s.loads[e]) := vector_ext fun e => by
        rw [ofFn_get, ofFn_get]
        by_cases he : e = d
        · subst he
          simp only [hr, ite_self]
        · exact if_congr (by simp [he]) rfl rfl
      rw [abortLoad_of_none hr, ih hrest, hloads, List.filterMap_cons, hr]
      rfl
    | some r =>
      have hloads : (Vector.ofFn (fun e => if e ∈ rest then none else ((s.setLoad d none).record
          (abortRecord s r reason)).loads[e])) = Vector.ofFn (fun e => if e ∈ d :: rest then none else s.loads[e]) :=
        vector_ext fun e => by
          rw [ofFn_get, ofFn_get, record_loads, Invariants.setLoad_get]
          by_cases he : d = e
          · subst he
            simp only [if_true, ite_self, List.mem_cons_self]
          · rw [if_neg he]
            exact if_congr (by simp [Ne.symm he]) rfl rfl
      have hrecords : rest.filterMap (fun e => (((s.setLoad d none).record (abortRecord s r reason)).loads[e]).map
          (fun q => abortRecord ((s.setLoad d none).record (abortRecord s r reason)) q reason)) =
          rest.filterMap (fun e => s.loads[e].map (fun q => abortRecord s q reason)) :=
        List.filterMap_congr fun e he => by
          have hne : d ≠ e := fun h => hd (h ▸ he)
          rw [record_loads, Invariants.setLoad_get, if_neg hne]
          simp only [abortRecord, record_clock]
          rfl
      rw [abortLoad_of_some hr, ih hrest, hloads, hrecords, List.filterMap_cons, hr, record_slots]
      simp only [Option.map_some, addRecords_cons, record_guards, record_alert]
      rfl

/-- Every Download Record aborted with reason LINK (R124). -/
theorem abortAllLink_eq (s : State) :
    abortAllLink s = addRecords (State.slots s s.guards (Vector.replicate 4 none) s.alert)
      ((List.finRange 4).filterMap (fun d => s.loads[d].map (fun r => abortRecord s r .link))) := by
  have hloads : (Vector.ofFn (fun d => if d ∈ List.finRange 4 then none else s.loads[d])) = Vector.replicate 4 none :=
    vector_ext fun d => by
      rw [ofFn_get, if_pos (List.mem_finRange d)]
      exact (Vector.getElem_replicate d.isLt).symm
  have := foldl_abortLoad .link (List.nodup_finRange 4) s
  rw [hloads] at this
  exact this

theorem linkExtra_down (p : Port) : linkExtra p false = if p = .cell then 2 else 0 := by
  cases p <;> rfl

/-- A port that goes DOWN, with its records in their order (R1, R2, R84, R124). -/
theorem portDown_eq (p : Port) (s : State) :
    portDown p s = addRecords
      { s.setPort p (flushPort (s.port p)) with
        outstanding := if p = .cell then [] else s.outstanding
        shadow := if p = .cell then [] else s.shadow
        loads := Vector.replicate 4 none }
      (linkRecord s p false ::
        (List.finRange 4).filterMap (fun d => s.loads[d].map (fun r => abortRecord s r .link))) := by
  have hcell : ∀ (v : State) (e : EventRecord), trackerCellDown (v.record e) = (trackerCellDown v).record e :=
    fun v e => by
      unfold trackerCellDown State.record
      split <;> rfl
  unfold portDown
  dsimp only
  rw [addRecords_cons]
  cases p with
  | net =>
    rw [abortAllLink_eq, record_slots]
    simp [State.setPort, State.slots, abortRecord]
  | cell =>
    dsimp only
    rw [hcell, abortAllLink_eq, record_slots]
    simp [State.setPort, State.slots, abortRecord, trackerCellDown]

/-- Replies reported, the response of a RESTART among them: the reset is taken (R7, R172). -/
theorem reportReplies_of_restart {l : List Reply} (h : ∃ r ∈ l, r.kind = .restartResponse) (s : State) :
    reportReplies s l = resetPart s true := by
  have hafter : ∀ (l : List Reply) (v : State), reportReplies (resetPart v true) l = resetPart v true := fun l => by
    induction l with
    | nil => exact fun v => rfl
    | cons r rest ih =>
      intro v
      have hr : reportReply (resetPart v true) r = resetPart v true := by
        rcases reportReply_cases (resetPart v true) r with ⟨-, h⟩ | ⟨-, h⟩ <;> rw [h]
        rw [resetPart_resetPart]
      exact (congrArg (fun v => reportReplies v rest) hr).trans (ih v)
  induction l with
  | nil =>
    obtain ⟨r, hr, -⟩ := h
    cases hr
  | cons q rest ih =>
    rcases reportReply_cases s q with ⟨hk, hq⟩ | ⟨hk, hq⟩
    · refine (congrArg (fun v => reportReplies v rest) hq).trans (ih ?_)
      obtain ⟨r, hr, hrk⟩ := h
      rcases List.mem_cons.mp hr with rfl | hr
      · exact absurd hrk hk
      · exact ⟨r, hr, hrk⟩
    · exact (congrArg (fun v => reportReplies v rest) hq).trans (hafter rest s)

theorem resetPart_noticeAfter (u w : State) (high : Bool) : resetPart (noticeAfter u w) high = resetPart w high := by
  obtain ⟨ps, k, h⟩ := noticeAfter_frame u w
  rw [h]
  rfl

theorem resetPart_addRecords (s : State) (l : List EventRecord) (high : Bool) :
    resetPart (addRecords s l) high = resetPart s high := by
  obtain ⟨v, o, h⟩ := addRecords_frame s l
  rw [h]
  rfl

/-- Settles O14. -/
theorem linkDownEmptiesThePort : Obligations.LinkDownEmptiesThePort := by
  have hexec : ∀ dt p s, exec (.linkChanged dt p false) s = .next (changeLink (s.elapse dt) p false) :=
    fun _ _ _ => rfl
  have hfollows : ∀ (v : State) (p : Port), linkFollows (v.setLink p false) p false =
      reportReplies (noticeAfter v (portDown p (v.setLink p false)))
        (transmitterReplies (v.port p).transmitter ++ (v.port p).replyQueue) := fun v p => by
    rw [linkFollows, if_neg (by decide), noticing, noticeAfter_setLink, port_setLink]
    rfl
  constructor
  · intro dt p s hr hm hl hrestart
    rw [hexec, changeLink_of_started hr hm (by rw [hl]; decide), hfollows, reportReplies_of_restart hrestart,
      resetPart_noticeAfter, portDown_eq, resetPart_addRecords]
    cases p <;> rfl
  · intro dt p s hr hm hl hrestart
    rw [hexec, changeLink_of_started hr hm (by rw [hl]; decide), hfollows, reportReplies_of_no_restart _ _ hrestart,
      portDown_eq, linkRecord, linkExtra_down, port_setLink]
    cases p <;> rfl

end Sys2Proof.Proofs.Ports
end

section
/-! Arrivals that go no further, the frames that carry requests, and the tests a request can fail (O17, O35 to O37). -/

namespace Sys2Proof.Proofs.Arrivals

open Sys2Proof Sys2Proof.Machine Sys2Proof.Claims Sys2Proof.Laws Sys2Proof.Proofs Sys2Proof.Proofs.Changes
open Sys2Proof.Proofs.ResetAndSave Sys2Proof.Proofs.ManagementLink

variable {s u w : State}

/-! ### FRAME_ARRIVAL -/

theorem arriveFrame_of_down {p : Port} (h : (u.port p).up = false) (frame : List Byte) : arriveFrame u p frame = u := by
  simp [arriveFrame, h]

theorem arriveFrame_of_format {p : Port} {frame : List Byte} (hup : (u.port p).up = true)
    (h : formatOk frame = false ∨ ((readLayers (withoutFcs frame)).destination = u.station ∧
      (readLayers (withoutFcs frame)).stacked = true)) :
    arriveFrame u p frame = countFormatDrop (countReceived u p) p := by
  have htest : (!formatOk frame || ((readLayers (withoutFcs frame)).destination == u.station &&
      (readLayers (withoutFcs frame)).stacked)) = true := by
    rcases h with h | ⟨hd, hs⟩
    · simp [h]
    · simp [hd, hs]
  simp only [arriveFrame, hup, Bool.not_true, Bool.false_eq_true, if_false, htest, if_true]

theorem arriveFrame_of_managed {p : Port} {frame : List Byte} (hup : (u.port p).up = true)
    (hf : formatOk frame = true) (hd : (readLayers (withoutFcs frame)).destination = u.station)
    (hs : (readLayers (withoutFcs frame)).stacked = false) :
    arriveFrame u p frame = handleManagement (countReceived u p) p (readLayers (withoutFcs frame)) := by
  simp [arriveFrame, hup, hf, hd, hs]

theorem arriveFrame_of_traffic {p : Port} {frame : List Byte} (hup : (u.port p).up = true)
    (hf : formatOk frame = true) (hd : (readLayers (withoutFcs frame)).destination ≠ u.station) :
    arriveFrame u p frame = handleTraffic (countReceived u p) p (readLayers (withoutFcs frame)) frame := by
  simp [arriveFrame, hup, hf, hd]

theorem handleTraffic_of_full {p : Port} (h : 32 ≤ (u.port (otherPort p)).forwardQueue.length) (l : Layers)
    (frame : List Byte) : handleTraffic u p l frame = countQueueFull u p :=
  if_pos h

theorem handleTraffic_net (h : u.cell.forwardQueue.length < 32) (l : Layers) (frame : List Byte) :
    handleTraffic u .net l frame =
      if !u.cell.up then countLinkDrop u .cell else noticing (fun s => handleDownstream s l frame) u :=
  if_neg (Nat.not_le.mpr h)

theorem handleTraffic_cell (h : u.net.forwardQueue.length < 32) (l : Layers) (frame : List Byte) :
    handleTraffic u .cell l frame = placeUpstream (noticing (handleResponse l) u) frame :=
  if_neg (Nat.not_le.mpr h)

/-- Settles O17. -/
theorem framesThatCannotPassAreCounted : Obligations.FramesThatCannotPassAreCounted := by
  intro dt p frame s
  have hexec : ∀ p, exec (.frameArrival dt p frame) s = .next (arriveFrame (s.elapse dt) p frame) := fun _ => rfl
  simp only [hexec]
  generalize s.elapse dt = u
  refine ⟨fun hup => ?_, fun hup h => ?_, fun hup hf hd hs hr => ?_, fun hup hf hd hfull => ?_,
    fun hup hf hd hroom hcell => ?_⟩
  · rw [arriveFrame_of_down hup]
  · rw [arriveFrame_of_format hup h]
    cases p <;> rfl
  · rw [arriveFrame_of_managed hup hf hd hs, handleManagement, hr]
    cases p <;> rfl
  · rw [arriveFrame_of_traffic hup hf hd, handleTraffic_of_full]
    · cases p <;> rfl
    · rw [countReceived, port_setPort_other]
      exact hfull
  · rw [arriveFrame_of_traffic (p := .net) hup hf hd, handleTraffic_net (u := countReceived u .net) hroom]
    exact congrArg Host.Outcome.next (if_pos (congrArg not hcell))

/-! ### Request rows -/

/-- A row's request and what its Code runs. -/
theorem requestRow_runs {code : Byte} {dt : Nat} {r : Request} {i : Instr} (h : requestRow code dt r = some i) :
    ∃ run, requestOfCode code = some run ∧ ∀ s, exec i s = .next (arriveRequest code run r (s.elapse dt)) := by
  have hcode : code = BitVec.ofNat 8 code.toNat := by simp
  unfold requestRow at h
  split at h
  case h_21 => cases h
  all_goals
    rename_i hc
    rw [hc] at hcode
    subst hcode
    cases h
    exact ⟨_, rfl, fun _ => rfl⟩

theorem requestOfCode_of_noRow {code : Byte} {dt : Nat} {r : Request} (h : requestRow code dt r = none) :
    requestOfCode code = none := by
  unfold requestRow at h
  split at h
  case h_21 =>
    unfold requestOfCode
    split
    case h_21 => rfl
    all_goals contradiction
  all_goals cases h

theorem arriveRequest_of_up {code : Byte} {run : Request → State → Answer} {r : Request}
    (hup : (u.port r.port).up = true) (hshort : 64 ≤ r.frameLength) (hlong : r.frameLength ≤ 1522) :
    arriveRequest code run r u = serveRequest code (some run) r (received r u) := by
  simp [arriveRequest, received, hup, Request.lengthOk, hshort, hlong]

theorem requestAllowed_eq_false {r : Request}
    (h : (r.port = .cell ∧ u.settings.cellManagement = false) ∨ isGroup r.source = true ∨
      (u.settings.sources ≠ [] ∧ r.source ∉ u.settings.sources)) : requestAllowed r (received r u) = false := by
  obtain ⟨a, b, hr⟩ := received_frame r u
  rw [hr]
  rcases h with ⟨hp, hm⟩ | h | ⟨hs, hn⟩
  · simp [requestAllowed, hp, hm]
  · simp [requestAllowed, h]
  · simp [requestAllowed, hs, hn]

/-- Settles O36. -/
theorem unacceptedRequestsAreOnlyCounted : Obligations.UnacceptedRequestsAreOnlyCounted := by
  intro code dt r i s hrow
  obtain ⟨run, -, hexec⟩ := requestRow_runs hrow
  rw [hexec]
  generalize s.elapse dt = u
  refine ⟨fun hup => ?_, fun hup hshort hlong => ⟨fun h => ?_, fun hport hgroup hsource hfull => ?_⟩⟩
  · simp [arriveRequest, hup]
  · rw [arriveRequest_of_up hup hshort hlong, serveRequest, requestAllowed_eq_false h]
    obtain ⟨a, b, hr⟩ := received_frame r u
    simp [hr]
  · have hallowed : requestAllowed r (received r u) = true := by
      obtain ⟨a, b, hr⟩ := received_frame r u
      rw [hr]
      simp [requestAllowed, hport, hgroup, hsource]
    have hfull' : 4 ≤ ((received r u).port r.port).replyQueue.length := by simpa using hfull
    rw [arriveRequest_of_up hup hshort hlong, serveRequest, hallowed]
    refine congrArg Host.Outcome.next ((if_neg (by decide)).trans ((if_pos hfull').trans ?_))
    obtain ⟨a, b, hr⟩ := received_frame r u
    rw [hr]

/-! ### Fields of a run of bytes -/

/-- The middle one of three runs. -/
theorem slice_middle {a b c : List Byte} {off n : Nat} (ha : a.length = off) (hb : b.length = n) :
    slice (a ++ (b ++ c)) off n = b := by
  subst ha hb
  simp [slice]

theorem beNat_beBytes_toNat {n : Nat} (v : BitVec (8 * n)) : beNat (beBytes n v.toNat) = v.toNat :=
  beNat_beBytes_of_lt (by
    have := v.isLt
    rwa [Nat.pow_mul] at this)

theorem be16At_middle {a c : List Byte} {off v : Nat} (ha : a.length = off) :
    be16At (a ++ (beBytes 2 v ++ c)) off = BitVec.ofNat 16 v := by
  rw [be16At, slice_middle ha (beBytes_length 2 v), beNat_beBytes]
  exact BitVec.eq_of_toNat_eq (by simp)

theorem be32At_middle {a c : List Byte} {off v : Nat} (ha : a.length = off) :
    be32At (a ++ (beBytes 4 v ++ c)) off = BitVec.ofNat 32 v := by
  rw [be32At, slice_middle ha (beBytes_length 4 v), beNat_beBytes]
  exact BitVec.eq_of_toNat_eq (by simp)

theorem be48At_middle {a c : List Byte} {off v : Nat} (ha : a.length = off) :
    be48At (a ++ (beBytes 6 v ++ c)) off = BitVec.ofNat 48 v := by
  rw [be48At, slice_middle ha (beBytes_length 6 v), beNat_beBytes]
  exact BitVec.eq_of_toNat_eq (by simp)

theorem be64At_middle {a c : List Byte} {off v : Nat} (ha : a.length = off) :
    be64At (a ++ (beBytes 8 v ++ c)) off = BitVec.ofNat 64 v := by
  rw [be64At, slice_middle ha (beBytes_length 8 v), beNat_beBytes]
  exact BitVec.eq_of_toNat_eq (by simp)

theorem byteAt_middle {a c : List Byte} {off : Nat} {x : Byte} (ha : a.length = off) : byteAt (a ++ x :: c) off = x := by
  subst ha
  simp [byteAt]

theorem beBytes_append (m n v : Nat) : beBytes (m + n) v = beBytes m (v / 256 ^ n) ++ beBytes n v := by
  induction m with
  | zero => simp [beBytes]
  | succ m ih =>
    rw [Nat.succ_add, beBytes, ih, beBytes, Nat.div_div_eq_div_mul, ← Nat.pow_add, Nat.add_comm n m, List.cons_append]

/-! ### A frame the part builds or takes (R10) -/

/-- The bytes of a VLAN tag. -/
def tagBytes (tag : Option (BitVec 32)) : List Byte := (tag.map (fun t => beBytes 4 t.toNat)).getD []

/-- A tag that begins with a tag type. -/
def TagLegal (tag : Option (BitVec 32)) : Prop := ∀ t, tag = some t → isTagType (t.extractLsb' 16 16) = true

theorem readLayers_untagged (d a : MacAddress) (content : List Byte) :
    readLayers (beBytes 6 d.toNat ++ (beBytes 6 a.toNat ++ ([0x88, 0xB6] ++ content))) =
      { destination := d, source := a, vlanTag := none, stacked := false, payloadType := some 0x88B6, payloadStart := 14,
        payload := content } := by
  have hd := be48At_middle (a := []) (c := beBytes 6 a.toNat ++ ([0x88, 0xB6] ++ content)) (v := d.toNat) (off := 0) rfl
  have ha := be48At_middle (a := beBytes 6 d.toNat) (c := [0x88, 0xB6] ++ content) (v := a.toNat) (off := 6) (by simp)
  have ht := be16At_middle (a := beBytes 6 d.toNat ++ beBytes 6 a.toNat) (c := content) (v := 0x88B6) (off := 12) (by simp)
  rw [List.nil_append] at hd
  have hbytes : beBytes 2 0x88B6 = [0x88, 0xB6] := by decide
  rw [hbytes, List.append_assoc] at ht
  have hdrop : (beBytes 6 d.toNat ++ (beBytes 6 a.toNat ++ ([0x88, 0xB6] ++ content))).drop 14 = content := by
    have := List.drop_left' (l₁ := beBytes 6 d.toNat ++ (beBytes 6 a.toNat ++ [0x88, 0xB6])) (l₂ := content) (i := 14)
      (by simp)
    rwa [List.append_assoc, List.append_assoc] at this
  have hno : isTagType (BitVec.ofNat 16 0x88B6) = false := by decide
  simp only [readLayers, hd, ha, ht, hno, hdrop, Bool.false_and, Bool.false_eq_true, if_false, Bool.false_or,
    BitVec.ofNat_toNat, BitVec.setWidth_eq]
  simp

theorem readLayers_tagged (d a : MacAddress) {t : BitVec 32} (ht : isTagType (t.extractLsb' 16 16) = true)
    (content : List Byte) :
    readLayers (beBytes 6 d.toNat ++ (beBytes 6 a.toNat ++ (beBytes 4 t.toNat ++ ([0x88, 0xB6] ++ content)))) =
      { destination := d, source := a, vlanTag := some t, stacked := false, payloadType := some 0x88B6,
        payloadStart := 18, payload := content } := by
  have hsplit : beBytes 4 t.toNat = beBytes 2 (t.toNat / 65536) ++ beBytes 2 t.toNat := beBytes_append 2 2 _
  have hbytes : beBytes 2 0x88B6 = [0x88, 0xB6] := by decide
  have hd := be48At_middle (a := []) (v := d.toNat) (off := 0)
    (c := beBytes 6 a.toNat ++ (beBytes 4 t.toNat ++ ([0x88, 0xB6] ++ content))) rfl
  have ha := be48At_middle (a := beBytes 6 d.toNat) (c := beBytes 4 t.toNat ++ ([0x88, 0xB6] ++ content)) (v := a.toNat)
    (off := 6) (by simp)
  have hfour := be32At_middle (a := beBytes 6 d.toNat ++ beBytes 6 a.toNat) (c := [0x88, 0xB6] ++ content)
    (v := t.toNat) (off := 12) (by simp)
  have houter := be16At_middle (a := beBytes 6 d.toNat ++ beBytes 6 a.toNat) (v := t.toNat / 65536) (off := 12)
    (c := beBytes 2 t.toNat ++ ([0x88, 0xB6] ++ content)) (by simp)
  have hinner := be16At_middle (a := beBytes 6 d.toNat ++ (beBytes 6 a.toNat ++ beBytes 4 t.toNat)) (c := content)
    (v := 0x88B6) (off := 16) (by simp)
  rw [List.nil_append] at hd
  rw [List.append_assoc] at hfour houter
  rw [← List.append_assoc (beBytes 2 (t.toNat / 65536)), ← hsplit] at houter
  rw [hbytes, List.append_assoc, List.append_assoc] at hinner
  have htype : BitVec.ofNat 16 (t.toNat / 65536) = t.extractLsb' 16 16 := by
    apply BitVec.eq_of_toNat_eq
    simp [BitVec.extractLsb'_toNat, Nat.shiftRight_eq_div_pow]
  have hdrop : (beBytes 6 d.toNat ++ (beBytes 6 a.toNat ++ (beBytes 4 t.toNat ++ ([0x88, 0xB6] ++ content)))).drop 18 =
      content := by
    have := List.drop_left' (l₁ := beBytes 6 d.toNat ++ (beBytes 6 a.toNat ++ (beBytes 4 t.toNat ++ [0x88, 0xB6])))
      (l₂ := content) (i := 18) (by simp)
    rwa [List.append_assoc, List.append_assoc, List.append_assoc] at this
  have hno : isTagType (BitVec.ofNat 16 0x88B6) = false := by decide
  simp only [readLayers, hd, ha, hfour, houter, hinner, htype, ht, hno, hdrop, Bool.and_false, if_true,
    Bool.false_or, BitVec.ofNat_toNat, BitVec.setWidth_eq]
  simp

/-- The layers of a frame laid out as R10 has it. -/
theorem readLayers_frame (d a : MacAddress) {tag : Option (BitVec 32)} (htag : TagLegal tag) (content : List Byte) :
    readLayers (beBytes 6 d.toNat ++ (beBytes 6 a.toNat ++ (tagBytes tag ++ ([0x88, 0xB6] ++ content)))) =
      { destination := d, source := a, vlanTag := tag, stacked := false, payloadType := some 0x88B6,
        payloadStart := if tag.isSome then 18 else 14, payload := content } := by
  cases tag with
  | none => exact readLayers_untagged d a content
  | some t => exact readLayers_tagged d a (htag t rfl) content

theorem tagLegal_of_tagOk {r : Request} (h : r.tagOk = true) : TagLegal r.vlanTag := by
  intro t ht
  rw [Request.tagOk, ht] at h
  exact h

/-! ### The frame that carries a request (R145) -/

/-- The management header of a request and what follows it. -/
def requestContent (code : Byte) (r : Request) : List Byte :=
  [r.version, code] ++ (beBytes 2 r.tag.toNat ++ (beBytes 8 r.token.toNat ++
    (beBytes 2 r.payloadLength.toNat ++ r.payload)))

theorem withoutFcs_wireFrame (station : MacAddress) (code : Byte) (r : Request) :
    withoutFcs (wireFrame station code r) = beBytes 6 station.toNat ++ (beBytes 6 r.source.toNat ++
      (tagBytes r.vlanTag ++ ([0x88, 0xB6] ++ requestContent code r))) := by
  rw [wireFrame, withoutFcs_withFcs]
  cases h : r.vlanTag <;> simp [tagBytes, requestContent]

theorem readLayers_wireFrame (station : MacAddress) (code : Byte) {r : Request} (h : r.tagOk = true) :
    readLayers (withoutFcs (wireFrame station code r)) =
      { destination := station, source := r.source, vlanTag := r.vlanTag, stacked := false,
        payloadType := some 0x88B6, payloadStart := if r.vlanTag.isSome then 18 else 14,
        payload := requestContent code r } := by
  rw [withoutFcs_wireFrame, readLayers_frame _ _ (tagLegal_of_tagOk h)]

theorem wireFrame_length (station : MacAddress) (code : Byte) (r : Request) :
    (wireFrame station code r).length = r.frameLength := by
  rw [wireFrame, withFcs_length, Request.frameLength]
  cases r.vlanTag <;> simp <;> omega

theorem formatOk_wireFrame (station : MacAddress) (code : Byte) (r : Request) :
    formatOk (wireFrame station code r) = r.lengthOk := by
  have hfcs : fcsOk (wireFrame station code r) = true := by rw [wireFrame, fcsOk_withFcs]
  rw [formatOk, hfcs, wireFrame_length, Request.lengthOk, Bool.true_and]

/-- The frame carries the request it was made from, and its Code. -/
theorem requestOfFrame_wireFrame (station : MacAddress) (code : Byte) {r : Request} (h : r.tagOk = true) :
    requestOfFrame r.port (readLayers (withoutFcs (wireFrame station code r))) = some (code, r) := by
  have htag : be16At (requestContent code r) 2 = r.tag := by
    rw [requestContent, be16At_middle (by simp), BitVec.ofNat_toNat, BitVec.setWidth_eq]
  have htoken : be64At (requestContent code r) 4 = r.token := by
    rw [requestContent, ← List.append_assoc, be64At_middle (by simp), BitVec.ofNat_toNat, BitVec.setWidth_eq]
  have hlength : be16At (requestContent code r) 12 = r.payloadLength := by
    rw [requestContent, ← List.append_assoc, ← List.append_assoc, be16At_middle (by simp), BitVec.ofNat_toNat,
      BitVec.setWidth_eq]
  have hpayload : (requestContent code r).drop 14 = r.payload := by
    rw [requestContent, ← List.append_assoc, ← List.append_assoc, ← List.append_assoc]
    exact List.drop_left' (by simp)
  have hlong : 14 ≤ (requestContent code r).length := by simp [requestContent]; omega
  rw [readLayers_wireFrame station code h, requestOfFrame, if_pos ⟨rfl, hlong⟩, htag, htoken, hlength, hpayload]
  rfl

/-- The arrival of the frame that carries a request. -/
theorem arriveFrame_wireFrame {code : Byte} {r : Request} (htag : r.tagOk = true) (hup : (u.port r.port).up = true)
    (hlength : r.lengthOk = true) :
    arriveFrame u r.port (wireFrame u.station code r) = serveRequest code (requestOfCode code) r (received r u) := by
  have hlayers := readLayers_wireFrame u.station code htag
  rw [arriveFrame_of_managed hup ((formatOk_wireFrame _ _ _).trans hlength) (by rw [hlayers]) (by rw [hlayers]),
    handleManagement, requestOfFrame_wireFrame _ _ htag]
  rfl

/-- Settles O35. -/
theorem requestRowIsItsFramesArrival : Obligations.RequestRowIsItsFramesArrival := by
  intro code dt r i s hrow htag
  obtain ⟨run, hrun, hexec⟩ := requestRow_runs hrow
  have hframe : exec (.frameArrival dt r.port (wireFrame s.station code r)) s =
      .next (arriveFrame (s.elapse dt) r.port (wireFrame s.station code r)) := rfl
  rw [hexec, hframe, ← elapse_station s dt]
  generalize s.elapse dt = u
  refine congrArg Host.Outcome.next ?_
  cases hup : (u.port r.port).up with
  | false =>
    rw [arriveFrame_of_down hup]
    simp [arriveRequest, hup]
  | true =>
    cases hlength : r.lengthOk with
    | false =>
      rw [arriveFrame_of_format hup (.inl ((formatOk_wireFrame _ _ _).trans hlength))]
      simp [arriveRequest, hup, hlength]
    | true =>
      rw [arriveFrame_wireFrame htag hup hlength, hrun]
      simp [arriveRequest, hup, hlength, received]

end Sys2Proof.Proofs.Arrivals
end

section
/-! The tests a request can fail, and what they leave (O37). -/

namespace Sys2Proof.Proofs.RequestTests

open Sys2Proof Sys2Proof.Machine Sys2Proof.Claims Sys2Proof.Laws Sys2Proof.Proofs Sys2Proof.Proofs.Changes
open Sys2Proof.Proofs.ResetAndSave Sys2Proof.Proofs.ManagementLink Sys2Proof.Proofs.Arrivals

variable {u w : State} {r : Request} {code : Byte}

/-- A request that is allowed and finds room is executed and answered. -/
theorem serveRequest_answered {run : Option (Request → State → Answer)} {status : Status} {payload : List Byte}
    (hallowed : requestAllowed r (received r u) = true) (hroom : (u.port r.port).replyQueue.length < 4)
    (hanswer : answerRequest run r (received r u) = ⟨w, status, payload, false⟩) :
    serveRequest code run r (received r u) = answered code r u w status payload := by
  have hroom' : ¬ 4 ≤ ((received r u).port r.port).replyQueue.length := by simpa using hroom
  have hserve : serveRequest code run r (received r u) = executeRequest code run r (received r u) := by
    rw [serveRequest, hallowed, if_neg hroom']
    rfl
  obtain ⟨a, b, hr⟩ := received_frame r u
  rw [hserve, executeRequest, hanswer, hr]
  rfl

/-- The acceptance of R146 does not look at the Version and the Payload Length. -/
theorem requestAllowed_of_accepted (h : Accepted { r with version := 1, payloadLength := 0 } u) :
    requestAllowed r (received r u) = true :=
  requestAllowed_received (r := { r with version := 1, payloadLength := 0 }) h

/-- What a request row whose tests 1 to 3 fail is answered. -/
theorem arriveRequest_answered {run : Request → State → Answer} {status : Status} {payload : List Byte}
    (h : Accepted { r with version := 1, payloadLength := 0 } u)
    (hanswer : answerRequest (some run) r (received r u) = ⟨w, status, payload, false⟩) :
    arriveRequest code run r u = answered code r u w status payload := by
  have hallowed := requestAllowed_of_accepted h
  obtain ⟨hup, ⟨hshort, hlong⟩, -, -, -, hroom, -⟩ := h
  rw [arriveRequest_of_up (r := r) (u := u) hup hshort hlong, serveRequest_answered hallowed hroom hanswer]

/-! ### The shape of a request's execution -/

/-- The requests that need the token test it first (R148). -/
theorem runs_withToken {run : Request → State → Answer} (hrun : requestOfCode code = some run)
    (htoken : code ∈ tokenCodes) : ∃ k : Request → State → Answer, ∀ r s, run r s = withToken r s (k r) := by
  simp only [tokenCodes, List.mem_cons, List.not_mem_nil, or_false] at htoken
  rcases htoken with rfl | rfl | rfl | rfl | rfl | rfl | rfl <;>
    exact ⟨_, fun r s => (congrFun (congrFun (Option.some.inj hrun) r) s).symm⟩

/-- Step 5 of R148 for a request that needs the token: after its test. -/
theorem runs_withLength_of_token {run : Request → State → Answer} {n : Nat} (hrun : requestOfCode code = some run)
    (htoken : code ∈ tokenCodes) (hsize : requestSize code = some n) :
    ∃ k : Request → State → List Byte → Answer, ∀ r s, run r s = withToken r s fun s => withLength r n s (k r s) := by
  simp only [tokenCodes, List.mem_cons, List.not_mem_nil, or_false] at htoken
  rcases htoken with rfl | rfl | rfl | rfl | rfl | rfl | rfl <;> cases hsize <;>
    exact ⟨_, fun r s => (congrFun (congrFun (Option.some.inj hrun) r) s).symm⟩

/-- Step 5 of R148 for the other requests. -/
theorem runs_withLength {run : Request → State → Answer} {n : Nat} (hrun : requestOfCode code = some run)
    (htoken : code ∉ tokenCodes) (hsize : requestSize code = some n) :
    ∃ k : Request → State → List Byte → Answer, ∀ r s, run r s = withLength r n s (k r s) := by
  have hcode : code = BitVec.ofNat 8 code.toNat := by simp
  unfold requestSize at hsize
  split at hsize
  case h_20 => cases hsize
  all_goals
    rename_i hc
    rw [hc] at hcode
    subst hcode
    cases hsize
  case h_7 | h_9 | h_11 | h_14 | h_17 | h_18 | h_19 => exact absurd (by decide) htoken
  all_goals exact ⟨_, fun r s => (congrFun (congrFun (Option.some.inj hrun) r) s).symm⟩

theorem withLength_of_ne {n : Nat} (h : r.payloadLength.toNat ≠ n) (s : State) (k : List Byte → Answer) :
    withLength r n s k = refuse s .badLength :=
  if_neg h

/-- A request of another size than its own. -/
theorem run_of_badLength {run : Request → State → Answer} {n : Nat} (hrun : requestOfCode code = some run)
    (hsize : requestSize code = some n) (hlength : r.payloadLength.toNat ≠ n)
    (htoken : code ∉ tokenCodes ∨ TokenPasses r u) :
    run r (received r u) = refuse (if code ∈ tokenCodes then admitted r u else received r u) .badLength := by
  by_cases hcode : code ∈ tokenCodes
  · obtain ⟨k, hk⟩ := runs_withLength_of_token hrun hcode hsize
    rw [hk, withToken_of_passes (htoken.resolve_left fun h => h hcode), withLength_of_ne hlength, if_pos hcode]
  · obtain ⟨k, hk⟩ := runs_withLength hrun hcode hsize
    rw [hk, withLength_of_ne hlength, if_neg hcode]

/-- A request that needs the token in its state tests it. -/
theorem run_of_needsToken {run : Request → State → Answer} (hrun : requestOfCode code = some run)
    (hneeds : NeedsToken code r u) : ∃ k, run r (received r u) = withToken r (received r u) k := by
  rcases hneeds with hcode | ⟨rfl, hlength, hbyte, hmode⟩
  · obtain ⟨k, hk⟩ := runs_withToken hrun hcode
    exact ⟨k r, hk r _⟩
  · obtain rfl : doSetMode = run := Option.some.inj hrun
    have hmode' : (received r u).mode = .enforce := by
      obtain ⟨a, b, hr⟩ := received_frame r u
      rw [hr]
      exact hmode
    have hpassive : modeOfByte (byteAt (r.payload.take 1) 0) = some .passive := by
      rw [byteAt_take (by omega), hbyte]
      rfl
    refine ⟨fun s => reply (enterMode s .passive r.source) [modeCode .passive], ?_⟩
    rw [doSetMode, withLength_of_eq (by rw [hlength]; rfl), hpassive]
    exact if_pos ⟨hmode', rfl⟩

theorem withToken_of_lockout {e : Nat} (h : u.lockoutEnd = some e) (k : State → Answer) :
    withToken r (received r u) k = refuse (received r u) .lockedOut := by
  obtain ⟨a, b, hr⟩ := received_frame r u
  have htest : tokenTest r (received r u) = (received r u, some .lockedOut) := by
    rw [hr]
    simp [tokenTest, h]
  rw [withToken, htest]

theorem withToken_of_wrong (hlockout : u.lockoutEnd = none) (htoken : r.token ≠ u.settings.token) (k : State → Answer) :
    withToken r (received r u) k = refuse
      (if u.tokenFailures = 2 then
        State.record { received r u with tokenFailures := 0, lockoutEnd := some (u.clock + 60000) }
          { time := u.clock, kind := .tokenLockout, source := some r.source, extra := some 60 }
      else { received r u with tokenFailures := u.tokenFailures + 1 }) .notAuthorized := by
  obtain ⟨a, b, hr⟩ := received_frame r u
  have htest : tokenTest r (received r u) =
      (if u.tokenFailures = 2 then
        State.record { received r u with tokenFailures := 0, lockoutEnd := some (u.clock + 60000) }
          { time := u.clock, kind := .tokenLockout, source := some r.source, extra := some 60 }
      else { received r u with tokenFailures := u.tokenFailures + 1 }, some .notAuthorized) := by
    rw [hr, tokenTest]
    dsimp only
    rw [hlockout, if_neg (by decide), if_neg htoken]
    split <;> rfl
  rw [withToken, htest]

theorem answerRequest_of_version {run : Option (Request → State → Answer)} (h : r.version ≠ 1) (s : State) :
    answerRequest run r s = refuse s .badRequest :=
  if_pos h

theorem answerRequest_of_noRow (s : State) : answerRequest none r s = refuse s .badRequest := by
  unfold answerRequest
  split <;> rfl

theorem answerRequest_of_short {run : Request → State → Answer} (hversion : r.version = 1)
    (h : r.payload.length < r.payloadLength.toNat) (s : State) :
    answerRequest (some run) r s = refuse s .badLength := by
  rw [answerRequest, if_neg (not_not.mpr hversion)]
  exact if_pos h

/-- Settles O37. -/
theorem failedTestsChangeOnlyTheTokenCount : Obligations.FailedTestsChangeOnlyTheTokenCount := by
  constructor
  · intro code dt r s hrow htag haccepted
    have hexec : exec (.frameArrival dt r.port (wireFrame s.station code r)) s =
        .next (arriveFrame (s.elapse dt) r.port (wireFrame s.station code r)) := rfl
    rw [hexec, ← elapse_station s dt]
    generalize s.elapse dt = u at haccepted ⊢
    have hallowed := requestAllowed_of_accepted haccepted
    obtain ⟨hup, ⟨hshort, hlong⟩, -, -, -, hroom, -⟩ := haccepted
    have hlength : r.lengthOk = true := by
      rw [Request.lengthOk, Bool.and_eq_true, decide_eq_true_eq, decide_eq_true_eq]
      exact ⟨hshort, hlong⟩
    rw [arriveFrame_wireFrame htag hup hlength, requestOfCode_of_noRow hrow,
      serveRequest_answered hallowed hroom (answerRequest_of_noRow _)]
  · intro code dt r i s hrow
    obtain ⟨run, hrun, hexec⟩ := requestRow_runs hrow
    rw [hexec]
    generalize s.elapse dt = u
    refine ⟨fun haccepted => ⟨fun hversion => ?_, fun hversion hshort => ?_⟩, fun n haccepted hsize hlength htoken => ?_,
      fun haccepted hneeds => ?_⟩
    · rw [arriveRequest_answered haccepted (answerRequest_of_version hversion _)]
    · rw [arriveRequest_answered haccepted (answerRequest_of_short hversion hshort _)]
    · rw [arriveRequest_of_accepted haccepted (run_of_badLength hrun hsize hlength htoken)]
    · obtain ⟨k, hk⟩ := run_of_needsToken hrun hneeds
      refine ⟨fun e he => ?_, fun hlockout htoken => ?_⟩
      · rw [arriveRequest_of_accepted haccepted (hk.trans (withToken_of_lockout he k))]
      · rw [arriveRequest_of_accepted haccepted (hk.trans (withToken_of_wrong hlockout htoken k))]

end Sys2Proof.Proofs.RequestTests
end

section
/-! The queries (O38, O39). -/

namespace Sys2Proof.Proofs.Queries

open Sys2Proof Sys2Proof.Machine Sys2Proof.Claims Sys2Proof.Laws Sys2Proof.Proofs Sys2Proof.Proofs.Changes
open Sys2Proof.Proofs.ResetAndSave Sys2Proof.Proofs.ManagementLink Sys2Proof.Proofs.Arrivals

variable {u s : State} {r : Request}

theorem be16At_take {l : List Byte} {i n : Nat} (h : i + 2 ≤ n) : be16At (l.take n) i = be16At l i := by
  rw [be16At, be16At, slice_take h]

theorem boolByte_eq (b : Bool) : boolByte b = if b = true then 1 else 0 := by
  cases b <;> rfl

/-! ### IDENTIFY, TABLE READ, READ LOADS -/

theorem doIdentify_eq (h : r.payloadLength = 0) (u : State) :
    doIdentify r (received r u) = reply (received r u)
      ([0x04, 0x16, 1, outcomeCode u.startOutcome] ++ beBytes 6 u.station.toNat ++ beBytes 6 u.clock) := by
  obtain ⟨a, b, hr⟩ := received_frame r u
  rw [doIdentify, withLength_of_eq (n := 0) (by rw [h]; rfl), hr]
  rfl

theorem doTableRead_eq (h : r.payloadLength = 6) (u : State) :
    doTableRead r (received r u) =
      match bankOfByte (byteAt r.payload 0), tableOfByte (byteAt r.payload 1) with
      | some id, some t =>
        if (be16At r.payload 4).toNat = 0 ∨ tableReadLimit t < (be16At r.payload 4).toNat then
          refuse (received r u) .badArgument
        else if tableEntries t < (be16At r.payload 2).toNat + (be16At r.payload 4).toNat then
          refuse (received r u) .badIndex
        else
          reply (received r u) ([BitVec.ofNat 8 (bankCode id), if id = u.active then 1 else 0, tableCode t, 0] ++
            beBytes 2 (be16At r.payload 2).toNat ++ beBytes 2 (be16At r.payload 4).toNat ++
            runBytes t (be16At r.payload 4).toNat (be16At r.payload 2).toNat (u.bank id))
      | _, _ => refuse (received r u) .badArgument := by
  obtain ⟨a, b, hr⟩ := received_frame r u
  rw [doTableRead, withLength_of_eq (n := 6) (by rw [h]; rfl), byteAt_take (by omega), byteAt_take (by omega),
    be16At_take (by omega), be16At_take (by omega), hr]
  simp only [boolByte_eq, beq_iff_eq]
  rfl

theorem doReadLoads_eq (h : r.payloadLength = 0) (u : State) :
    doReadLoads r (received r u) = reply (received r u)
      (beBytes 6 u.clock ++ (List.finRange 4).flatMap (fun d => loadBytes u.activeBank u.loads[d])) := by
  obtain ⟨a, b, hr⟩ := received_frame r u
  rw [doReadLoads, withLength_of_eq (n := 0) (by rw [h]; rfl), hr]
  rfl

/-! ### READ SHADOW (R91) -/

theorem insertByObject_perm (e : ShadowEntry) (l : List ShadowEntry) : (insertByObject e l).Perm (e :: l) := by
  induction l with
  | nil => exact .refl _
  | cons x rest ih =>
    unfold insertByObject
    split
    · exact .refl _
    · exact (ih.cons x).trans (.swap e x rest)

theorem insertByObject_sorted (e : ShadowEntry) {l : List ShadowEntry}
    (h : l.Pairwise (fun x y => x.object.toNat ≤ y.object.toNat)) :
    (insertByObject e l).Pairwise (fun x y => x.object.toNat ≤ y.object.toNat) := by
  induction l with
  | nil => exact List.pairwise_singleton _ _
  | cons x rest ih =>
    obtain ⟨hx, hrest⟩ := List.pairwise_cons.mp h
    unfold insertByObject
    split
    · next hle =>
      refine List.pairwise_cons.mpr ⟨fun y hy => ?_, h⟩
      rcases List.mem_cons.mp hy with rfl | hy
      · exact hle
      · exact hle.trans (hx y hy)
    · next hle =>
      refine List.pairwise_cons.mpr ⟨fun y hy => ?_, ih hrest⟩
      rcases List.mem_cons.mp ((insertByObject_perm e rest).mem_iff.mp hy) with rfl | hy
      · exact Nat.le_of_not_le hle
      · exact hx y hy

theorem foldr_insertByObject (l : List ShadowEntry) :
    (l.foldr insertByObject []).Perm l ∧
      (l.foldr insertByObject []).Pairwise (fun x y => x.object.toNat ≤ y.object.toNat) := by
  induction l with
  | nil => exact ⟨.refl _, .nil⟩
  | cons e rest ih => exact ⟨(insertByObject_perm e _).trans (ih.1.cons e), insertByObject_sorted e ih.2⟩

theorem doReadShadow_eq (h : r.payloadLength = 6) {slot : Fin 16} (hslot : (byteAt r.payload 0).toNat = slot.val)
    (u : State) :
    doReadShadow r (received r u) = reply (received r u)
      ([BitVec.ofNat 8 slot.val, if 32 < (shadowFrom u slot (be32At r.payload 2)).length then 1 else 0,
          BitVec.ofNat 8 ((shadowFrom u slot (be32At r.payload 2)).take 32).length, 0] ++ beBytes 6 u.clock ++
        ((shadowFrom u slot (be32At r.payload 2)).take 32).flatMap shadowBytes) := by
  have hbyte : byteAt r.payload 0 = BitVec.ofNat 8 slot.val := by rw [← hslot, BitVec.ofNat_toNat, BitVec.setWidth_eq]
  obtain ⟨a, b, hr⟩ := received_frame r u
  rw [doReadShadow, withLength_of_eq (n := 6) (by rw [h]; rfl), byteAt_take (by omega), be32At_take (by omega),
    slotOfByte_eq_some hslot, hbyte, hr]
  simp only [boolByte_eq, decide_eq_true_eq]
  rfl

theorem doReadShadow_badSlot (h : r.payloadLength = 6) (hslot : 16 ≤ (byteAt r.payload 0).toNat) (s : State) :
    doReadShadow r s = refuse s .badArgument := by
  rw [doReadShadow, withLength_of_eq (n := 6) (by rw [h]; rfl), byteAt_take (by omega), slotOfByte_eq_none hslot]

/-- Settles O38. -/
theorem queriesAnswerAndChangeNothing : Obligations.QueriesAnswerAndChangeNothing := by
  intro dt r s haccepted
  have hidentify : exec (.identify dt r) s = .next (arriveRequest 0x01 doIdentify r (s.elapse dt)) := rfl
  have htable : exec (.tableRead dt r) s = .next (arriveRequest 0x04 doTableRead r (s.elapse dt)) := rfl
  have hshadow : exec (.readShadow dt r) s = .next (arriveRequest 0x0E doReadShadow r (s.elapse dt)) := rfl
  have hloads : exec (.readLoads dt r) s = .next (arriveRequest 0x10 doReadLoads r (s.elapse dt)) := rfl
  rw [hidentify, htable, hshadow, hloads]
  generalize s.elapse dt = u at haccepted ⊢
  refine ⟨fun h => ?_, fun id t h hid ht hmin hmax hend => ?_, fun h hbad => ?_, fun t h hid ht hmin hmax hend => ?_,
    fun h hslot => ?_, fun slot h hslot => ?_, fun h => ?_⟩
  · rw [arriveRequest_of_accepted haccepted (doIdentify_eq h u)]
  · have hrun := doTableRead_eq h u
    rw [hid, ht] at hrun
    have hrun := hrun.trans ((if_neg (by omega)).trans (if_neg (by omega)))
    rw [arriveRequest_of_accepted haccepted hrun]
  · have hrun : doTableRead r (received r u) = refuse (received r u) .badArgument := by
      rw [doTableRead_eq h u]
      cases hid : bankOfByte (byteAt r.payload 0) with
      | none => rfl
      | some id =>
        cases ht : tableOfByte (byteAt r.payload 1) with
        | none => rfl
        | some t =>
          refine if_pos ?_
          rcases hbad with hbad | hbad | hbad | ⟨t', ht', hbad⟩
          · rw [hid] at hbad
            cases hbad
          · rw [ht] at hbad
            cases hbad
          · exact .inl (by rw [hbad]; rfl)
          · obtain rfl := Option.some.inj (ht.symm.trans ht')
            exact .inr hbad
    rw [arriveRequest_of_accepted haccepted hrun]
  · obtain ⟨id, hid⟩ := Option.isSome_iff_exists.mp hid
    have hrun := doTableRead_eq h u
    rw [hid, ht] at hrun
    have hrun := hrun.trans ((if_neg (by omega)).trans (if_pos hend))
    rw [arriveRequest_of_accepted haccepted hrun]
  · rw [arriveRequest_of_accepted haccepted (doReadShadow_badSlot h hslot _)]
  · obtain ⟨hperm, hsorted⟩ := foldr_insertByObject (u.shadow.filter (fun e =>
      e.slot == slot && (be32At r.payload 2).toNat ≤ e.object.toNat))
    refine ⟨shadowFrom u slot (be32At r.payload 2), ?_, hsorted, ?_⟩
    · simpa [shadowFrom, beq_eq_decide] using hperm
    · rw [arriveRequest_of_accepted haccepted (doReadShadow_eq h hslot u)]
  · rw [arriveRequest_of_accepted haccepted (doReadLoads_eq h u)]

/-! ### READ STATUS (R154, 11 section 11.3) -/

/-- The items before those of the slots. -/
def statusHead (s : State) : List Byte :=
  beBytes 6 s.clock ++
  [modeCode s.mode, outcomeCode s.startOutcome, BitVec.ofNat 8 (bankCode s.active), BitVec.ofNat 8 (statusFlags s),
    BitVec.ofNat 8 s.events.length, BitVec.ofNat 8 (loadsInUse s)] ++
  beBytes 2 s.outstanding.length ++ beBytes 2 s.shadow.length ++
  [BitVec.ofNat 8 s.tokenFailures.val, boolByte s.save.isSome, saveResultCode s.lastSave,
    BitVec.ofNat 8 s.settings.sources.length, boolByte s.settings.notice.isSome, 0] ++
  beBytes 2 (lockoutLeft s)

theorem statusBytes_eq (s : State) : statusBytes s = statusHead s ++ allSlots.flatMap (slotStatusBytes s) := rfl

theorem statusHead_length (s : State) : (statusHead s).length = 24 := by
  simp [statusHead]

theorem slotStatusBytes_length (s : State) (i : Fin 16) : (slotStatusBytes s i).length = 8 := by
  unfold slotStatusBytes
  split
  · split <;> simp
  · simp

theorem statusBytes_length (s : State) : (statusBytes s).length = 152 := by
  simp [statusBytes_eq, statusHead_length, List.length_flatMap, slotStatusBytes_length, allSlots]

/-- The bytes of a slot in their place, with what follows them. -/
theorem statusBytes_drop (s : State) (i : Fin 16) :
    ∃ rest, (statusBytes s).drop (24 + 8 * i.val) = slotStatusBytes s i ++ rest := by
  refine ⟨(allSlots.drop (i.val + 1)).flatMap (slotStatusBytes s), ?_⟩
  rw [← statusHead_length s, statusBytes_eq, List.drop_length_add_append, drop_flatMap (slotStatusBytes_length s),
    List.drop_eq_getElem_cons (by simp [allSlots]), List.flatMap_cons]
  simp [allSlots]

theorem byteAt_drop (l : List Byte) (n k : Nat) : byteAt l (n + k) = byteAt (l.drop n) k := by
  simp [byteAt]

theorem be16At_drop (l : List Byte) (n k : Nat) : be16At l (n + k) = be16At (l.drop n) k := by
  rw [be16At, be16At, slice, slice, List.drop_drop]

/-- The flags byte, bit by bit. -/
theorem flags_getLsbD : ∀ a b c d e f g h : Bool,
    let byte : Byte := BitVec.ofNat 8 ((if a then 1 else 0) + (if b then 2 else 0) + (if c then 4 else 0) +
      (if d then 8 else 0) + (if e then 16 else 0) + (if f then 32 else 0) + (if g then 64 else 0) +
      (if h then 128 else 0))
    byte.getLsbD 0 = a ∧ byte.getLsbD 1 = b ∧ byte.getLsbD 2 = c ∧ byte.getLsbD 3 = d ∧ byte.getLsbD 4 = e ∧
      byte.getLsbD 5 = f ∧ byte.getLsbD 6 = g ∧ byte.getLsbD 7 = h := by
  decide

/-- The bytes of a used slot (R109). -/
theorem slotStatusBytes_used {i : Fin 16} {g : SlotGuard} (hused : slotUsed s.activeBank i = true)
    (hg : s.guards[i] = some g) :
    slotStatusBytes s i = [1, guardCode g.state, g.intervalCount, BitVec.ofNat 8 g.lastAverage] ++
      (beBytes 2 (windowLeft s g.state) ++ (beBytes 2 0 ++ [])) := by
  rw [slotStatusBytes, if_pos hused, hg]
  rfl

theorem windowLeft_eq (s : State) (g : GuardState) :
    BitVec.ofNat 16 (windowLeft s g) =
      (match g with
        | .window d => BitVec.ofNat 16 ((d - s.clock + 999) / 1000)
        | .normal => 0
        | .frozen => 0) := by
  cases g <;> rfl

theorem lockoutLeft_eq (s : State) :
    BitVec.ofNat 16 (lockoutLeft s) =
      (match s.lockoutEnd with
        | some e => BitVec.ofNat 16 ((e - s.clock + 999) / 1000)
        | none => 0) := by
  unfold lockoutLeft
  cases s.lockoutEnd <;> rfl

theorem statusBytes_slot (s : State) (i : Fin 16) :
    (slotUsed s.activeBank i = false → ∀ k < 8, byteAt (statusBytes s) (24 + 8 * i.val + k) = 0) ∧
    ∀ g, slotUsed s.activeBank i = true → s.guards[i] = some g →
      byteAt (statusBytes s) (24 + 8 * i.val) = 1 ∧ byteAt (statusBytes s) (25 + 8 * i.val) = guardCode g.state ∧
      byteAt (statusBytes s) (26 + 8 * i.val) = g.intervalCount ∧
      byteAt (statusBytes s) (27 + 8 * i.val) = BitVec.ofNat 8 g.lastAverage ∧
      be16At (statusBytes s) (28 + 8 * i.val) =
        (match g.state with
          | .window d => BitVec.ofNat 16 ((d - s.clock + 999) / 1000)
          | .normal => 0
          | .frozen => 0) ∧
      be16At (statusBytes s) (30 + 8 * i.val) = 0 := by
  obtain ⟨rest, hrest⟩ := statusBytes_drop s i
  have hbyte : ∀ k, byteAt (statusBytes s) (24 + 8 * i.val + k) = byteAt (slotStatusBytes s i ++ rest) k := fun k => by
    rw [byteAt_drop, hrest]
  have hword : ∀ k, be16At (statusBytes s) (24 + 8 * i.val + k) = be16At (slotStatusBytes s i ++ rest) k := fun k => by
    rw [be16At_drop, hrest]
  constructor
  · intro hunused k hk
    have hzeros : slotStatusBytes s i = zeros 8 := by rw [slotStatusBytes, hunused]; rfl
    rw [hbyte, hzeros, byteAt_append_left _ _ _ (by simpa using hk)]
    interval_cases k <;> rfl
  · intro g hused hg
    rw [← Nat.add_zero (24 + 8 * i.val), show 25 + 8 * i.val = 24 + 8 * i.val + 1 by omega, show 26 + 8 * i.val = 24 + 8 * i.val + 2 by omega,
      show 27 + 8 * i.val = 24 + 8 * i.val + 3 by omega, show 28 + 8 * i.val = 24 + 8 * i.val + 4 by omega,
      show 30 + 8 * i.val = 24 + 8 * i.val + 6 by omega, hbyte, hbyte, hbyte, hbyte, hword, hword, slotStatusBytes_used hused hg]
    refine ⟨rfl, rfl, rfl, rfl, ?_, ?_⟩
    · rw [List.append_assoc, List.append_assoc, be16At_middle (by simp), windowLeft_eq]
    · rw [List.append_assoc, List.append_assoc, ← List.append_assoc [_, _, _, _], List.append_assoc (beBytes 2 0),
        be16At_middle (by simp)]
      rfl

/-- The items of READ STATUS up to the first count of two bytes. -/
def statusClock (s : State) : List Byte :=
  beBytes 6 s.clock ++
  [modeCode s.mode, outcomeCode s.startOutcome, BitVec.ofNat 8 (bankCode s.active), BitVec.ofNat 8 (statusFlags s),
    BitVec.ofNat 8 s.events.length, BitVec.ofNat 8 (loadsInUse s)]

/-- The items of READ STATUS before the time left of the lockout. -/
def statusSettings (s : State) : List Byte :=
  [BitVec.ofNat 8 s.tokenFailures.val, boolByte s.save.isSome, saveResultCode s.lastSave,
    BitVec.ofNat 8 s.settings.sources.length, boolByte s.settings.notice.isSome, 0]

theorem statusBytes_split (s : State) :
    statusBytes s = statusClock s ++ (beBytes 2 s.outstanding.length ++ (beBytes 2 s.shadow.length ++
      (statusSettings s ++ (beBytes 2 (lockoutLeft s) ++ allSlots.flatMap (slotStatusBytes s))))) := by
  simp [statusClock, statusSettings, statusBytes_eq, statusHead]

/-- Settles O39. -/
theorem readStatusReportsTheState : Obligations.ReadStatusReportsTheState := by
  intro dt r s haccepted h
  have hexec : exec (.readStatus dt r) s = .next (arriveRequest 0x02 doReadStatus r (s.elapse dt)) := rfl
  rw [hexec]
  generalize s.elapse dt = u at haccepted ⊢
  have hrun : doReadStatus r (received r u) = reply (received r u) (statusBytes u) := by
    obtain ⟨a, b, hr⟩ := received_frame r u
    rw [doReadStatus, withLength_of_eq (n := 0) (by rw [h]; rfl), hr]
    rfl
  have hflags := flags_getLsbD u.lock u.net.up u.cell.up u.permit u.alert u.overflow u.lockoutEnd.isSome
    u.settings.cellManagement
  refine ⟨statusBytes u, by rw [arriveRequest_of_accepted haccepted hrun], statusBytes_length u, ?_, rfl, rfl, ?_, hflags,
    rfl, rfl, ?_, ?_, rfl, boolByte_eq _, rfl, rfl, boolByte_eq _, rfl, ?_, statusBytes_slot u⟩
  · rw [statusBytes_eq, statusHead]
    simp only [List.append_assoc]
    exact be48At_middle (a := []) rfl
  · have hbank : byteAt (statusBytes u) 8 = BitVec.ofNat 8 (bankCode u.active) := rfl
    rw [hbank]
    cases u.active <;> rfl
  · rw [statusBytes_split, be16At_middle (by simp [statusClock])]
  · rw [statusBytes_split, ← List.append_assoc, be16At_middle (by simp [statusClock])]
  · rw [statusBytes_split, ← List.append_assoc, ← List.append_assoc, ← List.append_assoc,
      be16At_middle (by simp [statusClock, statusSettings])]
    exact lockoutLeft_eq u

end Sys2Proof.Proofs.Queries
end

section
/-! The requests on the banks, the lock, the mode and the windows (O41, O43 to O46). -/

namespace Sys2Proof.Proofs.BankRequests

open Sys2Proof Sys2Proof.Machine Sys2Proof.Claims Sys2Proof.Laws Sys2Proof.Proofs Sys2Proof.Proofs.Changes
open Sys2Proof.Proofs.ResetAndSave Sys2Proof.Proofs.ManagementLink Sys2Proof.Proofs.Arrivals
open Sys2Proof.Proofs.Queries Sys2Proof.Proofs.Expiries Sys2Proof.Proofs.Scores

variable {u s : State} {r : Request}

/-! ### TABLE WRITE and BANK COPY (R131, R133) -/

theorem doTableWrite_locked (h : s.lock = true) : doTableWrite r s = refuse s .policyLocked := by
  rw [doTableWrite]
  exact if_pos h

theorem doTableWrite_short (hlock : s.lock = false) (h : r.payloadLength.toNat < 6) :
    doTableWrite r s = refuse s .badLength := by
  have hlength : (r.payload.take r.payloadLength.toNat).length < 6 := by
    rw [List.length_take]
    omega
  rw [doTableWrite, hlock]
  exact if_pos hlength

/-- A TABLE WRITE long enough for its header, with the lock CLEAR. -/
theorem doTableWrite_long (hlock : s.lock = false) (h : 6 ≤ r.payloadLength.toNat)
    (hpayload : r.payloadLength.toNat ≤ r.payload.length) :
    doTableWrite r s =
      match tableOfByte (byteAt r.payload 0) with
      | none => refuse s .badArgument
      | some t =>
        if (be16At r.payload 4).toNat = 0 then refuse s .badArgument
        else if tableEntries t < (be16At r.payload 2).toNat + (be16At r.payload 4).toNat then refuse s .badIndex
        else if r.payloadLength.toNat ≠ 6 + (be16At r.payload 4).toNat * tableEntrySize t then refuse s .badLength
        else
          reply (s.setInactiveBank (writeRun t (be16At r.payload 4).toNat (be16At r.payload 2).toNat
            ((r.payload.take r.payloadLength.toNat).drop 6) s.inactiveBank))
            [BitVec.ofNat 8 (bankCode (otherBank s.active))] := by
  have hlength : (r.payload.take r.payloadLength.toNat).length = r.payloadLength.toNat := by
    rw [List.length_take, Nat.min_eq_left hpayload]
  rw [doTableWrite, hlock, byteAt_take (by omega), be16At_take (by omega), be16At_take (by omega), hlength]
  exact if_neg (Nat.not_lt.mpr h)

theorem doBankCopy_eq (h : r.payloadLength = 0) (s : State) :
    doBankCopy r s =
      if s.lock then refuse s .policyLocked
      else
        reply (s.setInactiveBank s.activeBank)
          [BitVec.ofNat 8 (bankCode s.active), BitVec.ofNat 8 (bankCode (otherBank s.active))] := by
  rw [doBankCopy, withLength_of_eq (by rw [h]; rfl)]

theorem setInactiveBank_activeBank (s : State) :
    s.setInactiveBank s.activeBank = { s with bankA := s.activeBank, bankB := s.activeBank } := by
  unfold State.setInactiveBank State.activeBank State.bank
  cases h : s.active <;> rfl

theorem bankCode_other (id : BankId) : BitVec.ofNat 8 (bankCode (otherBank id)) = if id = .a then 1 else 0 := by
  cases id <;> rfl

/-- Settles O41. -/
theorem inactiveBankTakesTheWrites : Obligations.InactiveBankTakesTheWrites := by
  intro dt r s haccepted
  have hwrite : exec (.tableWrite dt r) s = .next (arriveRequest 0x05 doTableWrite r (s.elapse dt)) := rfl
  have hcopy : exec (.bankCopy dt r) s = .next (arriveRequest 0x06 doBankCopy r (s.elapse dt)) := rfl
  rw [hwrite, hcopy]
  generalize s.elapse dt = u at haccepted ⊢
  obtain ⟨a, b, hr⟩ := received_frame r u
  have hlockOf : (received r u).lock = u.lock := by rw [hr]
  have hactive : (received r u).active = u.active := by rw [hr]
  have hinactive : (received r u).inactiveBank = u.inactiveBank := by rw [hr]; rfl
  have hbank : (received r u).activeBank = u.activeBank := by rw [hr]; rfl
  have hpayload : r.payloadLength.toNat ≤ r.payload.length := haccepted.2.2.2.2.2.2.2
  refine ⟨fun hlock => ⟨?_, fun h => ?_⟩, fun hlock status hfail => ?_, fun hlock => ⟨fun t ht hmin hend hsize => ?_,
    fun h => ?_⟩⟩
  · rw [arriveRequest_of_accepted haccepted (doTableWrite_locked (hlockOf.trans hlock))]
  · have hrun := (doBankCopy_eq h (received r u)).trans (if_pos (hlockOf.trans hlock))
    rw [arriveRequest_of_accepted haccepted hrun]
  · have hlock' := hlockOf.trans hlock
    have hrun : doTableWrite r (received r u) = refuse (received r u) status := by
      rcases hfail with ⟨hshort, rfl⟩ | ⟨hlong, hbad, rfl⟩ | ⟨hlong, hcount, t, ht, ⟨hend, rfl⟩ | ⟨hend, hsize, rfl⟩⟩
      · exact doTableWrite_short hlock' hshort
      · rw [doTableWrite_long hlock' hlong hpayload]
        rcases hbad with ht | hcount
        · rw [ht]
        · rw [hcount]
          cases tableOfByte (byteAt r.payload 0) <;> rfl
      · rw [doTableWrite_long hlock' hlong hpayload, ht]
        exact (if_neg (by bv_omega)).trans (if_pos hend)
      · rw [doTableWrite_long hlock' hlong hpayload, ht]
        exact (if_neg (by bv_omega)).trans ((if_neg (Nat.not_lt.mpr hend)).trans (if_pos hsize))
    rw [arriveRequest_of_accepted haccepted hrun]
  · have hrun := doTableWrite_long (s := received r u) (r := r) (hlockOf.trans hlock) (by omega) hpayload
    rw [ht, hinactive, hactive, bankCode_other] at hrun
    have hrun := hrun.trans ((if_neg (by omega)).trans ((if_neg (by omega)).trans (if_neg (not_not.mpr hsize))))
    rw [arriveRequest_of_accepted haccepted hrun]
  · have hrun := (doBankCopy_eq h (received r u)).trans (if_neg (by rw [hlockOf, hlock]; decide))
    rw [setInactiveBank_activeBank, hbank, hactive] at hrun
    have hcodes : [BitVec.ofNat 8 (bankCode u.active), BitVec.ofNat 8 (bankCode (otherBank u.active))] =
        if u.active = .a then [0, 1] else [1, 0] := by cases u.active <;> rfl
    rw [hcodes] at hrun
    rw [arriveRequest_of_accepted haccepted hrun, hr]

/-! ### LOCK POLICY and SET MODE (R143, R156) -/

theorem admitted_frame (r : Request) (u : State) :
    ∃ a b, admitted r u = { u with
      net := { u.net with received := a }, cell := { u.cell with received := b }, tokenFailures := 0 } := by
  obtain ⟨a, b, hr⟩ := received_frame r u
  exact ⟨a, b, congrArg (fun v : State => { v with tokenFailures := 0 }) hr⟩

theorem doSetMode_eq (h : r.payloadLength = 1) (s : State) :
    doSetMode r s =
      match modeOfByte (byteAt r.payload 0) with
      | none => refuse s .badArgument
      | some m =>
        if s.mode = .enforce ∧ m = .passive then
          withToken r s fun s => reply (enterMode s m r.source) [modeCode m]
        else reply (enterMode s m r.source) [modeCode m] := by
  rw [doSetMode, withLength_of_eq (by rw [h]; rfl), byteAt_take (by omega)] <;> rfl

theorem enterMode_eq (s : State) (m : Mode) (source : MacAddress) :
    enterMode s m source =
      if s.mode = m then s
      else
        { s with mode := m }.record
          { time := s.clock, kind := .modeChanged, source := some source, extra := some (modeCode m).toNat } := rfl

/-- Settles O43. -/
theorem lockAndModeAreSet : Obligations.LockAndModeAreSet := by
  intro dt r s haccepted
  have hlockExec : exec (.lockPolicy dt r) s = .next (arriveRequest 0x08 doLockPolicy r (s.elapse dt)) := rfl
  have hmodeExec : exec (.setMode dt r) s = .next (arriveRequest 0x09 doSetMode r (s.elapse dt)) := rfl
  rw [hlockExec, hmodeExec]
  generalize s.elapse dt = u at haccepted ⊢
  obtain ⟨a, b, hr⟩ := received_frame r u
  obtain ⟨a', b', ha⟩ := admitted_frame r u
  refine ⟨fun h htoken => ?_, fun m h hbyte hmode => ?_, fun h hbyte hmode htoken => ?_, fun h hone htwo => ?_⟩
  · have hrun : doLockPolicy r (received r u) = reply
        (if u.lock = true then admitted r u
        else
          State.record { admitted r u with lock := true }
            { time := u.clock, kind := .policyLocked, source := some r.source }) [] := by
      rw [doLockPolicy, withToken_of_passes htoken, withLength_of_eq (by rw [h]; rfl), ha]
      cases u.lock <;> rfl
    rw [arriveRequest_of_accepted haccepted hrun]
  · have hm : modeOfByte (byteAt r.payload 0) = some m ∧ modeCode m = byteAt r.payload 0 := by
      rcases hbyte with ⟨hb, rfl⟩ | ⟨hb, rfl⟩ <;> rw [hb] <;> exact ⟨rfl, rfl⟩
    have hno : ¬ ((received r u).mode = .enforce ∧ m = .passive) := by
      rw [hr]
      rintro ⟨he, rfl⟩
      rcases hmode with hmode | hmode
      · exact hmode he
      · cases hmode
    have hrun := doSetMode_eq h (received r u)
    rw [hm.1] at hrun
    have hrun := hrun.trans (if_neg hno)
    rw [hm.2, enterMode_eq, hm.2] at hrun
    rw [arriveRequest_of_accepted haccepted hrun, hr]
  · have hrun := doSetMode_eq h (received r u)
    rw [hbyte] at hrun
    have hyes : (received r u).mode = .enforce ∧ Mode.passive = .passive := ⟨by rw [hr]; exact hmode, rfl⟩
    have hrun := hrun.trans (if_pos hyes)
    rw [withToken_of_passes htoken, enterMode_eq, ha, if_neg (by simp [hmode])] at hrun
    rw [arriveRequest_of_accepted haccepted hrun, ha]
    rfl
  · have hrun := doSetMode_eq h (received r u)
    have hnone : modeOfByte (byteAt r.payload 0) = none := by rw [modeOfByte, if_neg hone, if_neg htwo]
    rw [hnone] at hrun
    rw [arriveRequest_of_accepted haccepted hrun]

/-! ### OPEN WINDOW (R94, R95) -/

theorem maskedSlots_eq (s : State) (m : BitVec 16) : maskedSlots s m = named s m := by
  rw [maskedSlots, usedSlots, List.filter_filter, named]
  exact List.filter_congr fun i _ => Bool.and_comm _ _

theorem nodup_named (s : State) (m : BitVec 16) : (named s m).Nodup := (List.nodup_finRange 16).filter _

theorem withGuardState_eq (s : State) (i : Fin 16) (g : GuardState) :
    withGuardState s i g = State.slots s (guardsWith s [i] g) s.loads s.alert := by
  unfold withGuardState
  cases hg : s.guards[i] with
  | some x =>
    rw [guardsWith_singleton hg]
    rfl
  | none =>
    have hguards : guardsWith s [i] g = s.guards := vector_ext fun j => by
      rw [guardsWith_getElem]
      split
      · next hj => rw [List.mem_singleton.mp hj, hg]; rfl
      · rfl
    rw [hguards]
    rfl

/-- Windows opened one after another (R95). -/
theorem foldl_openSlot (seconds : Nat) (source : MacAddress) (l : List (Fin 16)) (s : State) :
    l.foldl (openSlot seconds source) s =
      addRecords (State.slots s (guardsWith s l (.window (s.clock + seconds * 1000))) s.loads s.alert)
        (l.map (fun i =>
          { time := s.clock, kind := .windowOpened, slot := some i, source := some source, extra := some seconds })) := by
  induction l generalizing s with
  | nil =>
    have hguards : guardsWith s [] (.window (s.clock + seconds * 1000)) = s.guards :=
      vector_ext fun i => guardsWith_getElem s [] _ i
    rw [hguards]
    rfl
  | cons i rest ih =>
    have hopen : openSlot seconds source s i =
        (State.slots s (guardsWith s [i] (.window (s.clock + seconds * 1000))) s.loads s.alert).record
          { time := s.clock, kind := .windowOpened, slot := some i, source := some source,
            extra := some seconds } := by
      rw [openSlot, withGuardState_eq]
    have hguards : (openSlot seconds source s i).guards = guardsWith s [i] (.window (s.clock + seconds * 1000)) := by
      rw [hopen, record_guards]
      rfl
    have hclock : (openSlot seconds source s i).clock = s.clock := by rw [hopen, record_clock]; rfl
    rw [List.foldl_cons, ih, hclock, guardsWith_append hguards, hopen, record_slots, record_loads, record_alert]
    rfl

theorem isFrozen_congr {v : State} {i : Fin 16} (h : v.guards[i] = u.guards[i]) : isFrozen v i = isFrozen u i := by
  unfold isFrozen guardOf
  rw [h]

theorem doOpenWindow_eq (h : r.payloadLength = 4) (htoken : TokenPasses r u) :
    doOpenWindow r (received r u) =
      if be16At r.payload 2 = 0 ∨ named u (be16At r.payload 0) = [] then refuse (admitted r u) .badArgument
      else if u.permit = false then refuse (admitted r u) .noPermit
      else if ∃ i ∈ named u (be16At r.payload 0), isFrozen u i = true then refuse (admitted r u) .frozen
      else
        reply ((named u (be16At r.payload 0)).foldl (openSlot (min (be16At r.payload 2).toNat 3600) r.source)
          (admitted r u))
          (beBytes 2 (min (be16At r.payload 2).toNat 3600) ++ beBytes 2 (maskOf (named u (be16At r.payload 0))).toNat) := by
  obtain ⟨a, b, ha⟩ := admitted_frame r u
  have hnamed : maskedSlots (admitted r u) (be16At r.payload 0) = named u (be16At r.payload 0) := by
    rw [maskedSlots_eq, ha]
    rfl
  have hzero : (be16At r.payload 2).toNat = 0 ↔ be16At r.payload 2 = 0 := by bv_omega
  have hpermit : (!(admitted r u).permit) = true ↔ u.permit = false := by rw [ha]; simp
  have hfrozen : (named u (be16At r.payload 0)).any (isFrozen (admitted r u)) = true ↔
      ∃ i ∈ named u (be16At r.payload 0), isFrozen u i = true := by
    rw [List.any_eq_true]
    refine exists_congr fun i => and_congr_right fun _ => ?_
    rw [isFrozen_congr (u := u) (by rw [ha])]
  rw [doOpenWindow, withToken_of_passes htoken, withLength_of_eq (by rw [h]; rfl), be16At_take (by omega),
    be16At_take (by omega), hnamed]
  exact if_congr (or_congr_left hzero) rfl (if_congr hpermit rfl (if_congr hfrozen rfl rfl))

/-- Settles O44. -/
theorem openWindowOpensTheMaskedSlots : Obligations.OpenWindowOpensTheMaskedSlots := by
  intro dt r s haccepted h htoken
  have hexec : exec (.openWindow dt r) s = .next (arriveRequest 0x0A doOpenWindow r (s.elapse dt)) := rfl
  rw [hexec]
  generalize s.elapse dt = u at haccepted htoken ⊢
  have hrun := doOpenWindow_eq h htoken
  refine congrArg Host.Outcome.next ?_
  dsimp only
  split_ifs with hargument hpermit hfrozen
  · exact arriveRequest_of_accepted haccepted (hrun.trans (if_pos hargument))
  · exact arriveRequest_of_accepted haccepted (hrun.trans ((if_neg hargument).trans (if_pos hpermit)))
  · exact arriveRequest_of_accepted haccepted
      (hrun.trans ((if_neg hargument).trans ((if_neg hpermit).trans (if_pos hfrozen))))
  · have hrun := hrun.trans ((if_neg hargument).trans ((if_neg hpermit).trans (if_neg hfrozen)))
    rw [foldl_openSlot] at hrun
    obtain ⟨a, b, ha⟩ := admitted_frame r u
    rw [arriveRequest_of_accepted haccepted hrun, ha]
    rfl

/-! ### CLOSE WINDOW (R96) -/

theorem doCloseWindow_eq (h : r.payloadLength = 2) (u : State) :
    doCloseWindow r (received r u) =
      if named u (be16At r.payload 0) = [] then refuse (received r u) .badArgument
      else
        reply (closeWindows (received r u) (named u (be16At r.payload 0)) .request (some r.source))
          (beBytes 2 (maskOf ((named u (be16At r.payload 0)).filter (inWindow u))).toNat) := by
  obtain ⟨a, b, hr⟩ := received_frame r u
  have hnamed : maskedSlots (received r u) (be16At r.payload 0) = named u (be16At r.payload 0) := by
    rw [maskedSlots_eq, hr]
    rfl
  have hwindow : inWindow (received r u) = inWindow u := funext fun i => inWindow_congr (by rw [hr])
  rw [doCloseWindow, withLength_of_eq (by rw [h]; rfl), be16At_take (by omega), hnamed, hwindow]

/-- Settles O45. -/
theorem closeWindowClosesTheMaskedSlots : Obligations.CloseWindowClosesTheMaskedSlots := by
  intro dt r s haccepted h hone
  have hexec : exec (.closeWindow dt r) s = .next (arriveRequest 0x0B doCloseWindow r (s.elapse dt)) := rfl
  rw [hexec]
  generalize s.elapse dt = u at haccepted hone ⊢
  obtain ⟨a, b, hr⟩ := received_frame r u
  have hrun := doCloseWindow_eq h u
  refine congrArg Host.Outcome.next ?_
  dsimp only
  split_ifs with hnamed
  · exact arriveRequest_of_accepted haccepted (hrun.trans (if_pos hnamed))
  · have hrun := hrun.trans (if_neg hnamed)
    have hwindow : inWindow (received r u) = inWindow u := funext fun i => inWindow_congr (by rw [hr])
    rw [closeWindows_eq (nodup_named u _) (by decide) (some r.source) (by rw [hr]; exact hone), hwindow] at hrun
    exact arriveRequest_of_accepted haccepted hrun

/-! ### THAW (R105, R106) -/

/-- The guards with the FROZEN slots of a list cleared. -/
def thawedGuards (s : State) (l : List (Fin 16)) : Vector (Option SlotGuard) 16 :=
  Vector.ofFn (fun i => if i ∈ l.filter (isFrozen s) then some {} else s.guards[i])

/-- FROZEN slots thawed one after another (R105). -/
theorem foldl_thawSlot (source : Option MacAddress) {l : List (Fin 16)} (hl : l.Nodup) (s : State) :
    l.foldl (fun s i => thawSlot s i source) s =
      addRecords (State.slots s (thawedGuards s l) s.loads s.alert)
        ((l.filter (isFrozen s)).map (fun i =>
          { time := s.clock, kind := .thawed, slot := some i, source := source })) := by
  induction l generalizing s with
  | nil =>
    have hguards : thawedGuards s [] = s.guards := vector_ext fun i => ofFn_get _ i
    rw [hguards]
    rfl
  | cons i rest ih =>
    obtain ⟨hi, hrest⟩ := List.nodup_cons.mp hl
    rw [List.foldl_cons]
    by_cases hf : isFrozen s i = true
    · have hthaw : thawSlot s i source = (s.setGuard i (some freshGuard)).record
          { time := s.clock, kind := .thawed, slot := some i, source := source } := if_pos hf
      have hget : ∀ j : Fin 16, (thawSlot s i source).guards[j] = if i = j then some freshGuard else s.guards[j] := fun j => by
        rw [hthaw, record_guards, Time.setGuard_get]
      have hfrozen : rest.filter (isFrozen (thawSlot s i source)) = rest.filter (isFrozen s) :=
        List.filter_congr fun j hj => isFrozen_congr ((hget j).trans (if_neg fun (h : i = j) => hi (h ▸ hj)))
      have hguards : thawedGuards (thawSlot s i source) rest = thawedGuards s (i :: rest) := vector_ext fun j => by
        rw [thawedGuards, thawedGuards, ofFn_get, ofFn_get, hfrozen, List.filter_cons_of_pos hf, hget]
        by_cases hj : j = i
        · subst hj
          simp [freshGuard]
        · simp [hj, Ne.symm hj]
      rw [ih hrest, hguards, hfrozen, List.filter_cons_of_pos hf, hthaw, record_slots, record_loads, record_alert,
        record_clock]
      rfl
    · have hthaw : thawSlot s i source = s := if_neg hf
      have hguards : thawedGuards s rest = thawedGuards s (i :: rest) := by
        rw [thawedGuards, thawedGuards, List.filter_cons_of_neg hf]
      rw [hthaw, ih hrest, hguards, List.filter_cons_of_neg hf]

theorem anyFrozen_eq {v : State} {l : List (Fin 16)} (h : v.guards = thawedGuards s l) :
    anyFrozen v = (List.finRange 16).any (fun i => isFrozen s i && decide (i ∉ l.filter (isFrozen s))) := by
  refine congrArg (fun p => (List.finRange 16).any p) (funext fun i => ?_)
  have hget : v.guards[i] = if i ∈ l.filter (isFrozen s) then some {} else s.guards[i] := by
    rw [h]
    exact ofFn_get _ i
  by_cases hi : i ∈ l.filter (isFrozen s)
  · rw [if_pos hi] at hget
    simp [isFrozen, guardOf, hget, hi]
  · rw [if_neg hi] at hget
    rw [isFrozen_congr hget, decide_eq_true hi, Bool.and_true]

theorem doThaw_eq (h : r.payloadLength = 2) (htoken : TokenPasses r u) :
    doThaw r (received r u) =
      if named u (be16At r.payload 0) = [] then refuse (admitted r u) .badArgument
      else
        reply (setAlert ((named u (be16At r.payload 0)).foldl (fun s i => thawSlot s i (some r.source)) (admitted r u)))
          (beBytes 2 (maskOf ((named u (be16At r.payload 0)).filter (isFrozen u))).toNat) := by
  obtain ⟨a, b, ha⟩ := admitted_frame r u
  have hnamed : maskedSlots (admitted r u) (be16At r.payload 0) = named u (be16At r.payload 0) := by
    rw [maskedSlots_eq, ha]
    rfl
  have hfrozen : isFrozen (admitted r u) = isFrozen u := funext fun i => isFrozen_congr (by rw [ha])
  rw [doThaw, withToken_of_passes htoken, withLength_of_eq (by rw [h]; rfl), be16At_take (by omega), hnamed, hfrozen]

theorem setAlert_eq (s : State) : setAlert s = State.slots s s.guards s.loads (anyFrozen s) := rfl

/-- Settles O46. -/
theorem thawClearsTheFrozenSlots : Obligations.ThawClearsTheFrozenSlots := by
  intro dt r s haccepted h htoken
  have hexec : exec (.thaw dt r) s = .next (arriveRequest 0x0C doThaw r (s.elapse dt)) := rfl
  rw [hexec]
  generalize s.elapse dt = u at haccepted htoken ⊢
  have hrun := doThaw_eq h htoken
  refine congrArg Host.Outcome.next ?_
  dsimp only
  split_ifs with hnamed
  · exact arriveRequest_of_accepted haccepted (hrun.trans (if_pos hnamed))
  · have hrun := hrun.trans (if_neg hnamed)
    obtain ⟨a, b, ha⟩ := admitted_frame r u
    have hfrozen : isFrozen (admitted r u) = isFrozen u := funext fun i => isFrozen_congr (by rw [ha])
    rw [foldl_thawSlot (some r.source) (nodup_named u _), setAlert_eq, addRecords_guards, addRecords_loads,
      addRecords_slots, anyFrozen_eq (s := admitted r u) (l := named u (be16At r.payload 0))
        (by rw [addRecords_guards]; rfl), hfrozen] at hrun
    have hguards : thawedGuards (admitted r u) (named u (be16At r.payload 0)) =
        thawedGuards u (named u (be16At r.payload 0)) := by
      rw [thawedGuards, thawedGuards, hfrozen, ha]
    rw [arriveRequest_of_accepted haccepted hrun, ha]
    rw [ha] at hguards
    simp only [State.slots, hguards]
    rfl

end Sys2Proof.Proofs.BankRequests
end

section
/-! The settings block, and the requests that replace settings, save them and restart (O48, O49). -/

namespace Sys2Proof.Proofs.SettingsBlocks

open Sys2Proof Sys2Proof.Machine Sys2Proof.Claims Sys2Proof.Laws Sys2Proof.Proofs Sys2Proof.Proofs.Changes
open Sys2Proof.Proofs.ResetAndSave Sys2Proof.Proofs.ManagementLink Sys2Proof.Proofs.Arrivals Sys2Proof.Proofs.Queries Sys2Proof.Proofs.BankRequests

variable {u s : State} {r : Request}

/-! ### The fields that a settings block and SET SETTINGS share (R157, R175) -/

theorem addressesOf_eq (n : Nat) (l : List Byte) :
    addressesOf n l = (List.range n).map (fun k => be48At l (6 * k)) := by
  induction n generalizing l with
  | zero => rfl
  | succ n ih =>
    rw [addressesOf, ih, List.range_succ_eq_map, List.map_cons, List.map_map]
    refine congrArg (be48At l 0 :: ·) (List.map_congr_left fun k _ => ?_)
    change be48At (l.drop 6) (6 * k) = be48At l (6 * (k + 1))
    rw [be48At, be48At, slice, slice, List.drop_drop, Nat.mul_succ, Nat.add_comm]

theorem placeAt_eq (l : List Byte) (k : Nat) : be48At (l.drop 4) (6 * k) = placeAt l k := by
  rw [placeAt, be48At, be48At, slice, slice, List.drop_drop]

/-- The addresses written in a row read back (R175). -/
theorem addressesOf_flatMap (l : List MacAddress) (rest : List Byte) :
    addressesOf l.length (l.flatMap (fun a => beBytes 6 a.toNat) ++ rest) = l := by
  induction l with
  | nil => rfl
  | cons a l ih =>
    have hfirst : be48At (beBytes 6 a.toNat ++ (l.flatMap (fun a => beBytes 6 a.toNat) ++ rest)) 0 = a := by
      have h := be48At_middle (a := []) (off := 0) (v := a.toNat)
        (c := l.flatMap (fun a => beBytes 6 a.toNat) ++ rest) rfl
      rwa [List.nil_append, BitVec.ofNat_toNat, BitVec.setWidth_eq] at h
    rw [List.length_cons, addressesOf, List.flatMap_cons, List.append_assoc, hfirst,
      List.drop_append_of_le_length (by simp), List.drop_of_length_le (by simp), List.nil_append, ih]

/-- The first 28 bytes break a condition of R157. -/
def HeadFails (l : List Byte) : Prop :=
  4 < (byteAt l 0).toNat ∨
  (∃ k < (byteAt l 0).toNat, isGroup (placeAt l k) = true ∨ placeAt l k = 0 ∨ ∃ j < k, placeAt l j = placeAt l k) ∨
  1 < (byteAt l 1).toNat ∨ (byteAt l 2 ≠ 1 ∧ byteAt l 2 ≠ 2) ∨ 1 < (byteAt l 3).toNat

theorem settingsFail_iff {l : List Byte} :
    SettingsFail l ↔ HeadFails l ∨ 1 < (byteAt l 36).toNat ∨ (byteAt l 36 = 1 ∧ 1 < (byteAt l 37).toNat) := by
  unfold SettingsFail HeadFails
  simp only [or_assoc]

/-- A map over the first numbers has no repetition exactly when no value came before. -/
theorem nodup_map_range {α : Type} {f : Nat → α} {n : Nat} :
    ((List.range n).map f).Nodup ↔ ∀ k < n, ∀ j < k, f j ≠ f k := by
  rw [List.Nodup, List.pairwise_map, List.pairwise_iff_getElem]
  constructor
  · intro h k hk j hj
    have hne := h j k (by rw [List.length_range]; omega) (by rw [List.length_range]; omega) hj
    rwa [List.getElem_range, List.getElem_range] at hne
  · intro h j k hj hk hjk
    simpa using h k (by simpa using hk) j hjk

theorem settingsOf_of_fails {l : List Byte} (h : HeadFails l) (token : BitVec 64) (notice : Option NoticeDestination) :
    settingsOf l token notice = none := by
  refine if_neg ?_
  rintro ⟨hcount, hall, hnodup, hcell, hlock, hstart⟩
  rw [addressesOf_eq] at hall hnodup
  simp only [placeAt_eq] at hall hnodup
  rcases h with h | ⟨k, hk, h⟩ | h | ⟨hone, htwo⟩ | h
  · omega
  · have hgood := List.all_eq_true.mp hall _ (List.mem_map.mpr ⟨k, List.mem_range.mpr hk, rfl⟩)
    rcases h with h | h | ⟨j, hj, h⟩
    · simp [h] at hgood
    · simp [h] at hgood
    · exact nodup_map_range.mp hnodup k hk j hj h
  · omega
  · exact hstart.elim hone htwo
  · omega

theorem settingsOf_of_not_fails {l : List Byte} (h : ¬ HeadFails l) (token : BitVec 64)
    (notice : Option NoticeDestination) :
    settingsOf l token notice = some
      { sources := (List.range (byteAt l 0).toNat).map (placeAt l)
        cellManagement := decide (byteAt l 1 = 1)
        startEnforce := decide (byteAt l 2 = 2)
        lockAtStart := decide (byteAt l 3 = 1)
        token := token
        notice := notice } := by
  simp only [HeadFails, not_or, not_exists, not_and, Nat.not_lt] at h
  obtain ⟨hcount, hplaces, hcell, hstart, hlock⟩ := h
  have haddresses : addressesOf (byteAt l 0).toNat (l.drop 4) = (List.range (byteAt l 0).toNat).map (placeAt l) := by
    rw [addressesOf_eq]
    simp only [placeAt_eq]
  have hall : ((List.range (byteAt l 0).toNat).map (placeAt l)).all (fun a => !isGroup a && a != 0) = true := by
    refine List.all_eq_true.mpr fun a ha => ?_
    obtain ⟨k, hk, rfl⟩ := List.mem_map.mp ha
    obtain ⟨hgroup, hzero, -⟩ := hplaces k (List.mem_range.mp hk)
    rw [Bool.not_eq_true] at hgroup
    rw [hgroup, bne_iff_ne.mpr hzero]
    rfl
  have hnodup : ((List.range (byteAt l 0).toNat).map (placeAt l)).Nodup :=
    nodup_map_range.mpr fun k hk => (hplaces k hk).2.2
  rw [settingsOf, haddresses]
  exact if_pos ⟨hcount, hall, hnodup, hcell, hlock, or_iff_not_imp_left.mpr fun h => by simpa using hstart h⟩

/-- Settings that SET SETTINGS can make are read from the bytes that carry them (R157). -/
theorem settingsOf_legal {t : Settings} (h : SettingsLegal t) (rest : List Byte) (token : BitVec 64)
    (notice : Option NoticeDestination) :
    settingsOf (settingsHead t ++ (t.sources.flatMap (fun a => beBytes 6 a.toNat) ++ rest)) token notice =
      some { t with token := token, notice := notice } := by
  obtain ⟨hcount, hgood, hnodup⟩ := h
  set l := settingsHead t ++ (t.sources.flatMap (fun a => beBytes 6 a.toNat) ++ rest) with hl
  have hbytes : byteAt l 0 = BitVec.ofNat 8 t.sources.length ∧ byteAt l 1 = boolByte t.cellManagement ∧
      byteAt l 2 = (if t.startEnforce then 2 else 1) ∧ byteAt l 3 = boolByte t.lockAtStart := ⟨rfl, rfl, rfl, rfl⟩
  obtain ⟨hb0, hb1, hb2, hb3⟩ := hbytes
  have hlength : (byteAt l 0).toNat = t.sources.length := by
    rw [hb0, BitVec.toNat_ofNat]
    omega
  have haddresses : addressesOf (byteAt l 0).toNat (l.drop 4) = t.sources := by
    rw [hlength]
    exact addressesOf_flatMap t.sources rest
  have hall : t.sources.all (fun a => !isGroup a && a != 0) = true := List.all_eq_true.mpr fun a ha => by
    obtain ⟨hgroup, hzero⟩ := hgood a ha
    rw [hgroup, bne_iff_ne.mpr hzero]
    rfl
  have hbool : ∀ b : Bool, (boolByte b).toNat ≤ 1 ∧ (boolByte b == 1) = b := by decide
  have hmode : ∀ b : Bool, ((if b then 2 else 1 : Byte) = 1 ∨ (if b then 2 else 1 : Byte) = 2) ∧
      ((if b then 2 else 1 : Byte) == 2) = b := by decide
  rw [settingsOf, haddresses, hb1, hb2, hb3, (hbool t.cellManagement).2, (hbool t.lockAtStart).2,
    (hmode t.startEnforce).2]
  exact if_pos ⟨hlength ▸ hcount, hall, hnodup, (hbool _).1, (hbool _).1, (hmode _).1⟩

/-! ### SET NOTICE DESTINATION and SET SETTINGS (R157, R158) -/

theorem be48At_take {l : List Byte} {i n : Nat} (h : i + 6 ≤ n) : be48At (l.take n) i = be48At l i := by
  rw [be48At, be48At, slice_take h]

theorem be64At_take {l : List Byte} {i n : Nat} (h : i + 8 ≤ n) : be64At (l.take n) i = be64At l i := by
  rw [be64At, be64At, slice_take h]

theorem doSetNoticeDestination_eq (h : r.payloadLength = 10) (s : State) :
    doSetNoticeDestination r s =
      if be48At r.payload 0 = 0 then reply (setNotice s none) (noticeBytes none)
      else if 1 < (byteAt r.payload 6).toNat then refuse s .badArgument
      else
        reply
          (setNotice s (some ⟨be48At r.payload 0, if byteAt r.payload 6 = 1 then some (be16At r.payload 8) else none⟩))
          (noticeBytes
            (some ⟨be48At r.payload 0, if byteAt r.payload 6 = 1 then some (be16At r.payload 8) else none⟩)) := by
  rw [doSetNoticeDestination, withLength_of_eq (n := 10) (by rw [h]; rfl), be48At_take (by omega),
    byteAt_take (by omega), be16At_take (by omega)]

theorem headFails_take {l : List Byte} {n : Nat} (hn : 28 ≤ n) (h : HeadFails l) : HeadFails (l.take n) := by
  have hplace : ∀ k < 4, placeAt (l.take n) k = placeAt l k := fun k hk => be48At_take (by omega)
  unfold HeadFails
  rw [byteAt_take (by omega), byteAt_take (by omega), byteAt_take (by omega), byteAt_take (by omega)]
  by_cases hcount : 4 < (byteAt l 0).toNat
  · exact .inl hcount
  · rcases h with h | ⟨k, hk, h⟩ | h
    · exact .inl h
    · refine .inr (.inl ⟨k, hk, ?_⟩)
      rw [hplace k (by omega)]
      exact h.imp_right (Or.imp_right fun ⟨j, hj, hjk⟩ => ⟨j, hj, (hplace j (by omega)).trans hjk⟩)
    · exact .inr (.inr h)

theorem doSetSettings_eq (h : r.payloadLength = 36) (htoken : TokenPasses r u) :
    doSetSettings r (received r u) =
      match settingsOf (r.payload.take 36) (be64At r.payload 28) u.settings.notice with
      | none => refuse (admitted r u) .badArgument
      | some t => reply { admitted r u with settings := t } (settingsHead t ++ addressPlaces t.sources) := by
  obtain ⟨a, b, ha⟩ := admitted_frame r u
  have hsettings : (admitted r u).settings = u.settings := by rw [ha]
  rw [doSetSettings, withToken_of_passes htoken, withLength_of_eq (n := 36) (by rw [h]; rfl), be64At_take (by omega),
    hsettings] <;> rfl

theorem settingsHead_eq (t : Settings) :
    settingsHead t = [BitVec.ofNat 8 t.sources.length, if t.cellManagement = true then 1 else 0,
      if t.startEnforce = true then 2 else 1, if t.lockAtStart = true then 1 else 0] := by
  rw [settingsHead, boolByte_eq, boolByte_eq]

theorem flatMap_address_length (l : List MacAddress) :
    (l.flatMap (fun a => beBytes 6 a.toNat)).length = 6 * l.length := by
  simp [List.length_flatMap, Nat.mul_comm]

theorem addressPlaces_eq {l : List MacAddress} (h : l.length ≤ 4) :
    addressPlaces l = l.flatMap (fun a => beBytes 6 a.toNat) ++ List.replicate (24 - 6 * l.length) 0 := by
  rw [addressPlaces, List.take_of_length_le h, show 6 * (4 - l.length) = 24 - 6 * l.length by omega, zeros]

/-- Settles O48. -/
theorem settingsAreReplaced : Obligations.SettingsAreReplaced := by
  intro dt r s haccepted
  have hnotice : exec (.setNoticeDestination dt r) s =
      .next (arriveRequest 0x11 doSetNoticeDestination r (s.elapse dt)) := rfl
  have hsettings : exec (.setSettings dt r) s = .next (arriveRequest 0x12 doSetSettings r (s.elapse dt)) := rfl
  rw [hnotice, hsettings]
  generalize s.elapse dt = u at haccepted ⊢
  obtain ⟨a, b, hr⟩ := received_frame r u
  have hset : ∀ n, setNotice (received r u) n = { received r u with settings := { u.settings with notice := n } } :=
    fun n => by rw [hr]; rfl
  refine ⟨fun h hzero => ?_, fun h hzero hvlan => ?_, fun v h hzero hv => ?_,
    fun t fill rest h htoken hlegal hkept hfill hp => ?_, fun h htoken hfail => ?_⟩
  · have hrun := (doSetNoticeDestination_eq h (received r u)).trans (if_pos hzero)
    rw [hset] at hrun
    exact congrArg _ (arriveRequest_of_accepted haccepted hrun)
  · have hrun := (doSetNoticeDestination_eq h (received r u)).trans ((if_neg hzero).trans (if_pos hvlan))
    exact congrArg _ (arriveRequest_of_accepted haccepted hrun)
  · have hsmall : ¬ 1 < (byteAt r.payload 6).toNat := by
      rcases hv with ⟨hb, -⟩ | ⟨hb, -⟩ <;> rw [hb] <;> decide
    have hcontrol : (if byteAt r.payload 6 = 1 then some (be16At r.payload 8) else none) = v := by
      rcases hv with ⟨hb, rfl⟩ | ⟨hb, rfl⟩ <;> rw [hb] <;> rfl
    have hrun := (doSetNoticeDestination_eq h (received r u)).trans ((if_neg hzero).trans (if_neg hsmall))
    rw [hcontrol, hset] at hrun
    have hanswer := arriveRequest_of_accepted (code := 0x11) haccepted hrun
    rw [hanswer]
    cases v <;> rfl
  · have hcount : t.sources.length ≤ 4 := hlegal.1
    have hhead := settingsHead_eq t
    rw [← hhead, List.append_assoc, List.append_assoc, List.append_assoc] at hp
    have hlength : (settingsHead t ++ (t.sources.flatMap (fun a => beBytes 6 a.toNat) ++ fill)).length = 28 := by
      rw [List.length_append, List.length_append, flatMap_address_length, hfill]
      simp only [settingsHead, List.length_cons, List.length_nil]
      omega
    have hpayload : r.payload = settingsHead t ++ (t.sources.flatMap (fun a => beBytes 6 a.toNat) ++ fill) ++
        beBytes 8 t.token.toNat ++ rest := by
      rw [hp]
      simp only [List.append_assoc]
    have htokenBytes : be64At r.payload 28 = t.token := by
      rw [hpayload, List.append_assoc, be64At_middle hlength, BitVec.ofNat_toNat, BitVec.setWidth_eq]
    have htake : r.payload.take 36 = settingsHead t ++
        (t.sources.flatMap (fun a => beBytes 6 a.toNat) ++ (fill ++ beBytes 8 t.token.toNat)) := by
      rw [hpayload, List.take_append_of_le_length (by rw [List.length_append, hlength, beBytes_length]),
        List.take_of_length_le (by rw [List.length_append, hlength, beBytes_length])]
      simp only [List.append_assoc]
    have hrun := doSetSettings_eq h htoken
    rw [htake, settingsOf_legal hlegal, htokenBytes] at hrun
    have hsame : ({ t with token := t.token, notice := u.settings.notice } : Settings) = t := by rw [← hkept]
    rw [hsame] at hrun
    rw [arriveRequest_of_accepted haccepted hrun, ← hhead, addressPlaces_eq hcount, List.append_assoc]
  · have hfails : HeadFails r.payload := by
      rcases hfail with h | h | h | h | h
      · exact .inl h
      · exact .inr (.inr (.inl h))
      · exact .inr (.inr (.inr (.inl h)))
      · exact .inr (.inr (.inr (.inr h)))
      · exact .inr (.inl h)
    have hrun := doSetSettings_eq h htoken
    rw [settingsOf_of_fails (headFails_take (by omega) hfails)] at hrun
    exact congrArg _ (arriveRequest_of_accepted haccepted hrun)

/-! ### SAVE and RESTART (R169, R172) -/

theorem doSave_eq (h : r.payloadLength = 0) (htoken : TokenPasses r u) :
    doSave r (received r u) =
      if u.save.isSome = true ∨ u.restartPending = true then refuse (admitted r u) .busy
      else reply (beginSave (admitted r u) r.source) [BitVec.ofNat 8 (bankCode u.active)] := by
  obtain ⟨a, b, ha⟩ := admitted_frame r u
  rw [doSave, withToken_of_passes htoken, withLength_of_eq (n := 0) (by rw [h]; rfl)]
  simp only [ha]

theorem doRestart_eq (h : r.payloadLength = 0) (htoken : TokenPasses r u) :
    doRestart r (received r u) =
      if u.save.isSome = true then refuse (admitted r u) .busy
      else { state := { admitted r u with restartPending := true }, status := .ok, restarts := !u.restartPending } := by
  obtain ⟨a, b, ha⟩ := admitted_frame r u
  rw [doRestart, withToken_of_passes htoken, withLength_of_eq (n := 0) (by rw [h]; rfl)]
  simp only [ha]

/-- What a SAVE writes first (log entry 13). -/
theorem beginSave_memory (s : State) (source : MacAddress) :
    (beginSave s source).memory =
      memoryWrite s.memory headerAddress (headerBytes markIncomplete (bodyBytes s.settings s.activeBank)) := rfl

/-- An accepted request executed, also one that answers for a RESTART. -/
theorem arriveRequest_executes {code : Byte} {run : Request → State → Answer} {w : State} {status : Status}
    {payload : List Byte} {restarts : Bool} (h : Accepted r u)
    (hrun : run r (received r u) = ⟨w, status, payload, restarts⟩) :
    arriveRequest code run r u = noticeAfter (received r u) (offerReply w r.port
      ⟨if restarts = true then .restartResponse else .response,
        responseFrame u.station code r ⟨w, status, payload, restarts⟩⟩) := by
  have hallowed := requestAllowed_received h
  obtain ⟨hup, ⟨hshort, hlong⟩, -, -, -, hroom, hversion, hpayload⟩ := h
  have hanswer : answerRequest (some run) r (received r u) = ⟨w, status, payload, restarts⟩ := by
    rw [← hrun]
    simp [answerRequest, hversion, Nat.not_lt.mpr hpayload]
  have hserve : serveRequest code (some run) r (received r u) = executeRequest code (some run) r (received r u) := by
    have hroom' : ¬ 4 ≤ ((received r u).port r.port).replyQueue.length := by simpa using hroom
    rw [serveRequest, hallowed, if_neg hroom']
    rfl
  have hstation : (received r u).station = u.station := by
    obtain ⟨a, b, hr⟩ := received_frame r u
    rw [hr]
  rw [arriveRequest_of_up hup hshort hlong, hserve, executeRequest, hanswer, hstation]

/-- Settles O49. -/
theorem saveAndRestartAreAccepted : Obligations.SaveAndRestartAreAccepted := by
  intro dt r s haccepted h htoken
  have hsave : exec (.save dt r) s = .next (arriveRequest 0x13 doSave r (s.elapse dt)) := rfl
  have hrestart : exec (.restart dt r) s = .next (arriveRequest 0x14 doRestart r (s.elapse dt)) := rfl
  rw [hsave, hrestart]
  generalize s.elapse dt = u at haccepted htoken ⊢
  obtain ⟨a, b, ha⟩ := admitted_frame r u
  have hrunSave := doSave_eq h htoken
  have hrunRestart := doRestart_eq h htoken
  refine ⟨fun hbusy => ?_, fun hidle hpending => ?_, fun hbusy => ?_, fun hidle hpending => ?_, fun hidle hpending => ?_⟩
  · exact congrArg _ (arriveRequest_of_accepted haccepted (hrunSave.trans (if_pos hbusy)))
  · have hfree : ¬ (u.save.isSome = true ∨ u.restartPending = true) := by simp [hidle, hpending]
    have hrun := hrunSave.trans (if_neg hfree)
    have hcode : BitVec.ofNat 8 (bankCode u.active) = if u.active = .a then 0 else 1 := by cases u.active <;> rfl
    rw [hcode] at hrun
    refine ⟨(beginSave (admitted r u) r.source).memory, ?_, fun hm => ⟨?_, fun x hx => ?_⟩⟩
    · rw [arriveRequest_of_accepted haccepted hrun, ha]
      rfl
    · have hmemory := beginSave_memory (admitted r u) r.source
      rw [hmemory, ha]
      exact memoryRead_memoryWrite_inside _ _ _ 5 hm (by rw [headerBytes_length]; omega)
    · have hmemory := beginSave_memory (admitted r u) r.source
      rw [hmemory, ha]
      exact memoryRead_memoryWrite_outside _ _ _ x hm (by rwa [headerBytes_length])
  · exact congrArg _ (arriveRequest_of_accepted haccepted (hrunRestart.trans (if_pos hbusy)))
  · have hfree : ¬ u.save.isSome = true := by simp [hidle]
    have hrun := hrunRestart.trans (if_neg hfree)
    have hsame : ({ admitted r u with restartPending := true } : State) = admitted r u := by rw [ha, ← hpending]
    rw [hsame, hpending] at hrun
    exact congrArg _ (arriveRequest_of_accepted haccepted hrun)
  · have hfree : ¬ u.save.isSome = true := by simp [hidle]
    have hrun := hrunRestart.trans (if_neg hfree)
    rw [hpending] at hrun
    have hup : (({ admitted r u with restartPending := true } : State).port r.port).up = true := by
      have hport : ((received r u).port r.port).up = (u.port r.port).up := by rw [received_port]
      have hsame : ∀ p, (({ admitted r u with restartPending := true } : State).port p).up =
          ((received r u).port p).up := fun p => by cases p <;> rfl
      exact (hsame r.port).trans (hport.trans haccepted.1)
    refine congrArg Host.Outcome.next ((arriveRequest_executes haccepted hrun).trans ?_)
    rw [offerReply, if_pos hup]
    refine noticeAfter_of_sameEvents ?_
    obtain ⟨a', b', hr⟩ := received_frame r u
    rw [ha, hr]
    cases r.port <;> rfl

end Sys2Proof.Proofs.SettingsBlocks
end

section
/-! The layouts on the wire: event records, responses and NOTICES (O50). -/

namespace Sys2Proof.Proofs.Layouts

open Sys2Proof Sys2Proof.Machine Sys2Proof.Claims Sys2Proof.Laws Sys2Proof.Proofs Sys2Proof.Proofs.Arrivals
open Sys2Proof.Proofs.Queries

variable {s : State}

/-! ### Event records (11 section 11.5) -/

/-- The number that a run of bytes written big-endian reads as. -/
theorem ofNat_beNat_beBytes (n v : Nat) : BitVec.ofNat (8 * n) (beNat (beBytes n v)) = BitVec.ofNat (8 * n) v := by
  rw [beNat_beBytes, show 256 ^ n = 2 ^ (8 * n) by rw [Nat.pow_mul]]
  exact BitVec.eq_of_toNat_eq (by rw [BitVec.toNat_ofNat, BitVec.toNat_ofNat, Nat.mod_mod])

theorem be16At_of_slice {l : List Byte} {off v : Nat} (h : slice l off 2 = beBytes 2 v) :
    be16At l off = BitVec.ofNat 16 v := by
  rw [be16At, h]
  exact ofNat_beNat_beBytes 2 v

theorem be32At_of_slice {l : List Byte} {off v : Nat} (h : slice l off 4 = beBytes 4 v) :
    be32At l off = BitVec.ofNat 32 v := by
  rw [be32At, h]
  exact ofNat_beNat_beBytes 4 v

theorem be48At_of_slice {l : List Byte} {off v : Nat} (h : slice l off 6 = beBytes 6 v) :
    be48At l off = BitVec.ofNat 48 v := by
  rw [be48At, h]
  exact ofNat_beNat_beBytes 6 v

theorem be64At_of_slice {l : List Byte} {off v : Nat} (h : slice l off 8 = beBytes 8 v) :
    be64At l off = BitVec.ofNat 64 v := by
  rw [be64At, h]
  exact ofNat_beNat_beBytes 8 v

theorem mem_kindTable (k : EventKind) : (k, kindCode k) ∈ kindTable := by cases k <;> decide

theorem mem_reasonTable (r : Reason) : (r, reasonCode r) ∈ reasonTable := by cases r <;> decide

/-- A presence flag is clear for an absent field, whose bytes are then zero. -/
theorem ofNat_getD {n : Nat} (x : Option (BitVec n)) : BitVec.ofNat n ((x.map BitVec.toNat).getD 0) = x.getD 0 := by
  cases x with
  | none => rfl
  | some v => exact (BitVec.ofNat_toNat n v).trans (BitVec.setWidth_eq v)

theorem indexByte_toNat {n : Nat} (hn : n ≤ 256) (x : Option (Fin n)) :
    ((x.map (fun i => BitVec.ofNat 8 i.val)).getD 0).toNat = (x.map Fin.val).getD 0 := by
  cases x with
  | none => rfl
  | some i => exact Nat.mod_eq_of_lt (by omega)

theorem recordLaidOut (e : EventRecord) : RecordLaidOut e (recordBytes e) := by
  have hkind : byteAt (recordBytes e) 6 = kindCode e.kind := rfl
  have hreason : byteAt (recordBytes e) 7 = (e.reason.map reasonCode).getD 0 := rfl
  have hslot : byteAt (recordBytes e) 10 = (e.slot.map (fun i => BitVec.ofNat 8 i.val)).getD 0 := rfl
  have hrule : byteAt (recordBytes e) 11 = (e.rule.map (fun i => BitVec.ofNat 8 i.val)).getD 0 := rfl
  have hflags : be16At (recordBytes e) 8 = BitVec.ofNat 16 (presenceFlags e) := be16At_of_slice rfl
  have hsource : be48At (recordBytes e) 12 = BitVec.ofNat 48 ((e.source.map BitVec.toNat).getD 0) := be48At_of_slice rfl
  have hobject : be32At (recordBytes e) 18 = BitVec.ofNat 32 ((e.object.map BitVec.toNat).getD 0) := be32At_of_slice rfl
  have hrequested : be64At (recordBytes e) 22 = BitVec.ofNat 64 (BitVec.ofInt 64 (e.requested.getD 0)).toNat :=
    be64At_of_slice rfl
  have hforwarded : be64At (recordBytes e) 30 = BitVec.ofNat 64 (BitVec.ofInt 64 (e.forwarded.getD 0)).toNat :=
    be64At_of_slice rfl
  refine ⟨by simp [recordBytes, int64Bytes], be48At_of_slice rfl, ?_, ?_, ?_, ?_, ?_, ?_, ?_, ?_, ?_,
    be32At_of_slice rfl, rfl⟩
  · rw [hkind]
    exact mem_kindTable e.kind
  · rw [hreason]
    cases e.reason with
    | none => rfl
    | some r => exact mem_reasonTable r
  · rw [hflags]
    rfl
  · rw [hslot]
    exact indexByte_toNat (by omega) e.slot
  · rw [hrule]
    exact indexByte_toNat (by omega) e.rule
  · rw [hsource, ofNat_getD]
  · rw [hobject, ofNat_getD]
  · rw [hrequested, BitVec.ofNat_toNat, BitVec.setWidth_eq]
  · rw [hforwarded, BitVec.ofNat_toNat, BitVec.setWidth_eq]

/-! ### Frames the part builds (R6, R7, R147, R162) -/

/-- The zero bytes after a content (R7). -/
def padBytes (tag : Option (BitVec 32)) (content : List Byte) : List Byte :=
  zeros (46 - (tagBytes tag).length - content.length)

theorem mem_zeros {n : Nat} {x : Byte} (h : x ∈ zeros n) : x = 0 := List.eq_of_mem_replicate h

theorem tagBytes_length_le (tag : Option (BitVec 32)) : (tagBytes tag).length ≤ 4 := by
  cases tag <;> simp [tagBytes]

theorem buildFrame_eq (d a : MacAddress) (tag : Option (BitVec 32)) (content : List Byte) :
    buildFrame d a tag content = withFcs (beBytes 6 d.toNat ++ (beBytes 6 a.toNat ++
      (tagBytes tag ++ ([0x88, 0xB6] ++ (content ++ padBytes tag content))))) := by
  have hpad : 60 - (beBytes 6 d.toNat ++ beBytes 6 a.toNat ++ (tagBytes tag ++ ([0x88, 0xB6] ++ content))).length =
      46 - (tagBytes tag).length - content.length := by
    simp only [List.length_append, beBytes_length, List.length_cons, List.length_nil]
    omega
  have hbuild : buildFrame d a tag content = withFcs
      (beBytes 6 d.toNat ++ beBytes 6 a.toNat ++ (tagBytes tag ++ ([0x88, 0xB6] ++ content)) ++
        zeros (60 - (beBytes 6 d.toNat ++ beBytes 6 a.toNat ++ (tagBytes tag ++ ([0x88, 0xB6] ++ content))).length)) := rfl
  rw [hbuild, hpad]
  simp only [List.append_assoc, padBytes]

theorem readLayers_buildFrame (d a : MacAddress) {tag : Option (BitVec 32)} (htag : TagLegal tag) (content : List Byte) :
    readLayers (withoutFcs (buildFrame d a tag content)) =
      { destination := d, source := a, vlanTag := tag, stacked := false, payloadType := some 0x88B6,
        payloadStart := if tag.isSome then 18 else 14, payload := content ++ padBytes tag content } := by
  rw [buildFrame_eq, withoutFcs_withFcs, readLayers_frame d a htag]

theorem buildFrame_length (d a : MacAddress) (tag : Option (BitVec 32)) (content : List Byte) :
    (buildFrame d a tag content).length = max 64 (18 + (tagBytes tag).length + content.length) := by
  have := tagBytes_length_le tag
  rw [buildFrame_eq, withFcs_length]
  simp only [List.length_append, beBytes_length, List.length_cons, List.length_nil, padBytes, zeros_length]
  omega

theorem padBytes_eq_nil {tag : Option (BitVec 32)} {content : List Byte}
    (h : 64 ≤ 18 + (tagBytes tag).length + content.length) : padBytes tag content = [] := by
  rw [padBytes, show 46 - (tagBytes tag).length - content.length = 0 by omega]
  rfl

theorem tagLegal_notice (v : Option (BitVec 16)) : TagLegal (v.map (fun c => 0x8100#16 ++ c)) := by
  rintro t ht
  obtain ⟨c, -, rfl⟩ := Option.map_eq_some_iff.mp ht
  have htype : (0x8100#16 ++ c).extractLsb' 16 16 = 0x8100#16 := by
    ext i hi
    rw [BitVec.getElem_extractLsb', BitVec.getLsbD_append, if_neg (by omega), Nat.add_sub_cancel_left]
    exact BitVec.getLsbD_eq_getElem hi
  rw [htype]
  decide

/-- The NOTICE for a record (R162). -/
def noticeContent (e : EventRecord) (flag : Bool) : List Byte :=
  [1, 0xC0, 0, 0, 0, 0, 0, 8] ++ beBytes 6 e.time ++ [kindCode e.kind, if flag = true then 1 else 0]

theorem noticeFrame_eq (s : State) (n : NoticeDestination) (e : EventRecord) (flag : Bool) :
    noticeFrame s n e flag = buildFrame n.address s.station (n.vlan.map (fun c => 0x8100#16 ++ c))
      (noticeContent e flag) := by
  rw [noticeFrame, noticeContent, boolByte_eq]
  rfl

/-- Settles O50. -/
theorem responseFrameIsLaidOut : Obligations.ResponseFrameIsLaidOut := by
  refine ⟨recordLaidOut, ?_, ?_⟩
  · rintro s n e flag f rfl
    have hlength : (noticeContent e flag).length = 16 := by simp [noticeContent]
    rw [noticeFrame_eq, readLayers_buildFrame _ _ (tagLegal_notice n.vlan), buildFrame_length, hlength]
    have htag := tagBytes_length_le (n.vlan.map (fun c => 0x8100#16 ++ c))
    refine ⟨by rw [buildFrame_eq, fcsOk_withFcs], by omega, rfl, rfl, rfl, rfl, kindCode e.kind,
      padBytes (n.vlan.map (fun c => 0x8100#16 ++ c)) (noticeContent e flag), mem_kindTable e.kind,
      fun x hx => mem_zeros hx, rfl⟩
  · intro station code r a htag hlength
    have hframe : responseFrame station code r a = buildFrame r.source station r.vlanTag
        ([1, code + 0x80] ++ beBytes 2 r.tag.toNat ++ [statusCode a.status, 0] ++ beBytes 2 a.payload.length ++
          a.payload) := rfl
    generalize [1, code + 0x80] ++ beBytes 2 r.tag.toNat ++ [statusCode a.status, 0] ++ beBytes 2 a.payload.length ++
      a.payload = content at hframe ⊢
    dsimp only
    rw [hframe, readLayers_buildFrame _ _ (tagLegal_of_tagOk htag), buildFrame_length]
    refine ⟨by rw [buildFrame_eq, fcsOk_withFcs], by omega, rfl, rfl, rfl, rfl, padBytes r.vlanTag content, rfl,
      fun x hx => mem_zeros hx, ?_⟩
    by_cases hlong : 64 ≤ 18 + (tagBytes r.vlanTag).length + content.length
    · exact .inl (padBytes_eq_nil hlong)
    · exact .inr (by omega)

end Sys2Proof.Proofs.Layouts
end

section
/-! Numbers of a Value Type, and the Value Bound Unit (O24, O25). -/

namespace Sys2Proof.Proofs.Bounds

open Sys2Proof Sys2Proof.Machine Sys2Proof.Claims Sys2Proof.Laws Sys2Proof.Proofs Sys2Proof.Proofs.Arrivals

/-! ### Numbers in either byte order (R59, R68) -/

theorem leNat_leBytes (n v : Nat) : leNat (leBytes n v) = beNat (beBytes n v) := by
  rw [leBytes, leNat, List.foldr_reverse, beNat]
  exact congrArg (fun f => (beBytes n v).foldl f 0) (funext fun a => funext fun b => Nat.add_comm _ _)

theorem typeWidth_pos (t : ValueType) : 0 < typeWidth t := by cases t <;> decide

/-- The bytes of a number, read plainly: the number itself, or with `2^(8w)` added when it is negative (R68). -/
theorem orderedNat_encodeValue (p : Profile) (t : ValueType) (q : Int) :
    orderedNat p (encodeValue p t q) =
      (if q < 0 then q + 2 ^ (8 * typeWidth t) else q).toNat % 256 ^ typeWidth t := by
  unfold orderedNat encodeValue
  cases isLittle p with
  | true => exact (leNat_leBytes _ _).trans (beNat_beBytes _ _)
  | false => exact beNat_beBytes _ _

theorem encodeValue_length (p : Profile) (t : ValueType) (q : Int) : (encodeValue p t q).length = typeWidth t := by
  unfold encodeValue
  cases isLittle p <;> simp

theorem decodeValue_encodeValue (p : Profile) {t : ValueType} {q : Int} (hmin : typeMin t ≤ q) (hmax : q ≤ typeMax t) :
    decodeValue p t (encodeValue p t q) = q := by
  rw [decodeValue, orderedNat_encodeValue]
  cases t <;> simp only [typeMin, typeMax, typeSigned, typeWidth] at hmin hmax ⊢ <;> norm_num at hmin hmax ⊢ <;>
    split_ifs <;> omega

/-- Settles O25. -/
theorem valueBytesRoundTrip : Obligations.ValueBytesRoundTrip := fun p t q hmin hmax =>
  ⟨encodeValue_length p t q, decodeValue_encodeValue p hmin hmax⟩

/-! ### The computation of an admissible value (R61 to R65) -/

/-- A point of the grid that starts at Low (R62). -/
abbrev OnGrid (r : BoundRule) (x : Int) : Prop := 2 ≤ r.grid → (r.grid : Int) ∣ x - r.low

/-- A value of the band on the grid, nearest to a candidate, the lower of two equally near (R62 to R64). -/
def Nearest (r : BoundRule) (a b c q : Int) : Prop :=
  ∀ x : Int, a ≤ x → x ≤ b → OnGrid r x → |q - c| ≤ |x - c| ∧ (|q - c| = |x - c| → q ≤ x)

theorem band_low {r : BoundRule} {reference : Option Int} {a b : Int} (h : boundBand r reference = (a, b)) :
    r.low ≤ a ∧ b ≤ r.high := by
  unfold boundBand at h
  split at h
  · split at h <;> cases h <;> omega
  · cases h
    omega

theorem band_step {r : BoundRule} {ref a b : Int} (h : boundBand r (some ref) = (a, b)) (hstep : 0 < r.step) :
    ref - r.step ≤ a ∧ b ≤ ref + r.step := by
  have hband : boundBand r (some ref) = (max r.low (ref - r.step), min r.high (ref + r.step)) := if_pos hstep
  cases hband.symm.trans h
  omega

/-- The value before the last test of R64. -/
def boundPoint (r : BoundRule) (a b v : Int) : Int :=
  if 2 ≤ r.grid then boundCorrect r a b (boundRound r (min (max v a) b)) else min (max v a) b

theorem admissible_eq {r : BoundRule} {reference : Option Int} {a b : Int} (h : boundBand r reference = (a, b))
    (v : Int) :
    admissible r reference v =
      if b < a then none
      else if a ≤ boundPoint r a b v ∧ boundPoint r a b v ≤ b then some (boundPoint r a b v) else none := by
  rw [admissible, h]
  rfl

/-- The grid points below and above a number are a Grid apart. -/
theorem exists_gridPoint {r : BoundRule} (hg : 2 ≤ r.grid) (c : Int) :
    ∃ f : Int, OnGrid r f ∧ f ≤ c ∧ c < f + r.grid ∧
      boundRound r c = (if (r.grid : Int) < 2 * (c - f) then f + r.grid else f) ∧
      ∀ x, OnGrid r x → x ≤ f ∨ f + r.grid ≤ x := by
  have hpos : (0 : Int) < r.grid := by omega
  have hmul := Int.mul_ediv_add_emod (c - r.low) r.grid
  have hnonneg := Int.emod_nonneg (c - r.low) (by omega : (r.grid : Int) ≠ 0)
  have hlt := Int.emod_lt_of_pos (c - r.low) hpos
  set k := (c - r.low) / r.grid with hk
  set m := (c - r.low) % r.grid with hm
  refine ⟨r.low + r.grid * k, fun _ => ⟨k, by omega⟩, by omega, by omega, ?_, fun x hx => ?_⟩
  · rw [boundRound, if_pos hg]
    simp only [← hk, ← hm]
    rw [show c - (r.low + r.grid * k) = m by omega]
    split_ifs <;> ring
  · obtain ⟨j, hj⟩ := hx hg
    rcases lt_or_ge k j with h | h
    · right
      have := Int.mul_le_mul_of_nonneg_left (show k + 1 ≤ j by omega) hpos.le
      rw [Int.mul_add, Int.mul_one] at this
      omega
    · left
      have := Int.mul_le_mul_of_nonneg_left h hpos.le
      omega

/-- A point at or below the candidate is nearer than one below it, or one at least as far above. -/
theorem nearest_below {q c x : Int} (hq : q ≤ c) (hx : x ≤ q ∨ c - q ≤ x - c) :
    |q - c| ≤ |x - c| ∧ (|q - c| = |x - c| → q ≤ x) := by
  rw [abs_of_nonpos (by omega : q - c ≤ 0)]
  rcases abs_cases (x - c) with ⟨h, _⟩ | ⟨h, _⟩ <;> rw [h] <;> omega

/-- A point at or above the candidate is nearer than one above it, or one farther below. -/
theorem nearest_above {q c x : Int} (hq : c ≤ q) (hx : q ≤ x ∨ q - c < c - x) :
    |q - c| ≤ |x - c| ∧ (|q - c| = |x - c| → q ≤ x) := by
  rw [abs_of_nonneg (by omega : 0 ≤ q - c)]
  rcases abs_cases (x - c) with ⟨h, _⟩ | ⟨h, _⟩ <;> rw [h] <;> omega

/-- The correction of R64 chooses between the grid points about the candidate: the nearer one, unless it lies outside the
band. -/
theorem boundCorrect_cases {r : BoundRule} {a b c f : Int} (hac : a ≤ c) (hcb : c ≤ b) (hf : f ≤ c)
    (hc : c < f + r.grid) :
    let q := boundCorrect r a b (if (r.grid : Int) < 2 * (c - f) then f + r.grid else f)
    (q = f ∧ (2 * (c - f) ≤ r.grid ∨ b < f + r.grid) ∧ a ≤ f) ∨
      (q = f + r.grid ∧ ((r.grid : Int) < 2 * (c - f) ∧ f + r.grid ≤ b ∨ f < a)) := by
  dsimp only [boundCorrect]
  split_ifs <;> omega

/-- The value of the unit is a grid point of the band, the nearest, and there is none only without a grid point. -/
theorem boundPoint_spec {r : BoundRule} {a b : Int} (hab : a ≤ b) (v : Int) :
    (a ≤ boundPoint r a b v ∧ boundPoint r a b v ≤ b →
      OnGrid r (boundPoint r a b v) ∧ Nearest r a b (min (max v a) b) (boundPoint r a b v)) ∧
    (¬ (a ≤ boundPoint r a b v ∧ boundPoint r a b v ≤ b) → ∀ x, a ≤ x → x ≤ b → ¬ OnGrid r x) := by
  have hc : a ≤ min (max v a) b ∧ min (max v a) b ≤ b := by omega
  unfold boundPoint Nearest
  generalize min (max v a) b = c at hc ⊢
  by_cases hg : 2 ≤ r.grid
  · obtain ⟨f, hf, hlow, hhigh, hround, hgap⟩ := exists_gridPoint hg c
    have hnext : OnGrid r (f + r.grid) := fun h => by
      obtain ⟨k, hk⟩ := hf h
      exact ⟨k + 1, by rw [Int.mul_add]; omega⟩
    rw [if_pos hg, hround]
    have hcases := boundCorrect_cases (r := r) (f := f) hc.1 hc.2 hlow hhigh
    generalize boundCorrect r a b (if (r.grid : Int) < 2 * (c - f) then f + r.grid else f) = q at hcases ⊢
    rcases hcases with ⟨rfl, hnear, hin⟩ | ⟨rfl, hnear⟩
    · refine ⟨fun _ => ⟨hf, fun x _ hxb hx => nearest_below hlow ?_⟩, fun h => absurd ⟨hin, by omega⟩ h⟩
      have := hgap x hx
      omega
    · refine ⟨fun _ => ⟨hnext, fun x hxa _ hx => nearest_above (by omega) ?_⟩, fun h x hxa hxb hx => ?_⟩
      · have := hgap x hx
        omega
      · have := hgap x hx
        omega
  · rw [if_neg hg]
    refine ⟨fun _ => ⟨fun h => absurd h hg, fun x _ _ _ => ?_⟩, fun h => absurd hc h⟩
    rw [sub_self, abs_zero]
    exact ⟨abs_nonneg _, fun h => by have := abs_eq_zero.mp h.symm; omega⟩

/-- Settles O24. -/
theorem boundGivesTheNearestGridPoint : Obligations.BoundGivesTheNearestGridPoint := by
  intro r reference v a b hband
  have hadmissible := admissible_eq hband v
  obtain ⟨hlow, hhigh⟩ := band_low hband
  refine ⟨fun q hq => ?_, fun hnone x hxa hxb hx => ?_, rfl⟩
  · rw [hadmissible] at hq
    split_ifs at hq with hab hin
    cases hq
    obtain ⟨hgrid, hnearest⟩ := (boundPoint_spec (by omega) v).1 hin
    refine ⟨by omega, hgrid, ?_, hnearest⟩
    rintro ref rfl hstep
    have := band_step hband hstep
    omega
  · rw [hadmissible] at hnone
    split_ifs at hnone with hab hin
    · omega
    · exact (boundPoint_spec (by omega) v).2 hin x hxa hxb hx

end Sys2Proof.Proofs.Bounds
end

section
/-! Table entries as bytes: what is written reads back (O10, O11). -/

namespace Sys2Proof.Proofs.Entries

open Sys2Proof Sys2Proof.Machine Sys2Proof.Claims Sys2Proof.Laws Sys2Proof.Proofs Sys2Proof.Proofs.Arrivals
open Sys2Proof.Proofs.Queries Sys2Proof.Proofs.Layouts Sys2Proof.Proofs.Expiries

variable {t t' : TableId} {b c : Bank} {l : List Byte} {i k n : Nat}

/-! ### Fields as the bytes they are read from -/

theorem slice_eq_map (h : k + n ≤ l.length) : slice l k n = (List.range n).map (fun j => byteAt l (k + j)) := by
  refine List.ext_getElem (by simp [slice]; omega) fun j hj _ => ?_
  rw [slice, List.length_take, List.length_drop] at hj
  simp [slice, byteAt, List.getElem?_eq_getElem (show k + j < l.length by omega)]

/-- The low bytes of a number do not depend on what stands above them. -/
theorem beBytes_add_mul (n v x : Nat) : beBytes n (v + x * 256 ^ n) = beBytes n v := by
  induction n generalizing x with
  | zero => rfl
  | succ n ih =>
    have hpos : 0 < 256 ^ n := by positivity
    have hsplit : v + x * 256 ^ (n + 1) = v + x * 256 * 256 ^ n := by ring
    have hbyte : BitVec.ofNat 8 (v / 256 ^ n + x * 256) = BitVec.ofNat 8 (v / 256 ^ n) := by
      apply BitVec.eq_of_toNat_eq
      rw [BitVec.toNat_ofNat, BitVec.toNat_ofNat]
      omega
    rw [hsplit, beBytes, beBytes, ih, Nat.add_mul_div_right _ _ hpos, hbyte]

theorem beBytes_beNat (l : List Byte) : beBytes l.length (beNat l) = l := by
  induction l with
  | nil => rfl
  | cons x rest ih =>
    have hlt : beNat rest < 256 ^ rest.length := by
      rw [← ih, beNat_beBytes, beBytes_length]
      exact Nat.mod_lt _ (by positivity)
    have hpos : 0 < 256 ^ rest.length := by positivity
    rw [List.length_cons, beBytes, beNat_cons, Nat.add_comm (x.toNat * _), Nat.add_mul_div_right _ _ hpos,
      Nat.div_eq_of_lt hlt, Nat.zero_add, BitVec.ofNat_toNat, BitVec.setWidth_eq, beBytes_add_mul, ih]

theorem beNat_lt (l : List Byte) : beNat l < 256 ^ l.length := by
  rw [← beBytes_beNat l, beNat_beBytes, beBytes_length]
  exact Nat.mod_lt _ (by positivity)

/-- A field written again gives the bytes it was read from. -/
theorem beBytes_field (h : k + n ≤ l.length) :
    beBytes n (BitVec.ofNat (8 * n) (beNat (slice l k n))).toNat = (List.range n).map (fun j => byteAt l (k + j)) := by
  have hlength : (slice l k n).length = n := by
    rw [slice, List.length_take, List.length_drop]
    omega
  have hlt := beNat_lt (slice l k n)
  rw [hlength, show (256 : Nat) = 2 ^ 8 from rfl, ← Nat.pow_mul] at hlt
  have hbytes := beBytes_beNat (slice l k n)
  rw [hlength] at hbytes
  rw [BitVec.toNat_ofNat, Nat.mod_eq_of_lt hlt, hbytes, slice_eq_map h]

theorem beBytes_be16At (h : k + 2 ≤ l.length) : beBytes 2 (be16At l k).toNat = [byteAt l k, byteAt l (k + 1)] :=
  beBytes_field h

theorem beBytes_be32At (h : k + 4 ≤ l.length) :
    beBytes 4 (be32At l k).toNat = [byteAt l k, byteAt l (k + 1), byteAt l (k + 2), byteAt l (k + 3)] :=
  beBytes_field h

theorem beBytes_be48At (h : k + 6 ≤ l.length) :
    beBytes 6 (be48At l k).toNat = [byteAt l k, byteAt l (k + 1), byteAt l (k + 2), byteAt l (k + 3), byteAt l (k + 4),
      byteAt l (k + 5)] :=
  beBytes_field h

theorem beBytes_be64At (h : k + 8 ≤ l.length) :
    beBytes 8 (be64At l k).toNat = [byteAt l k, byteAt l (k + 1), byteAt l (k + 2), byteAt l (k + 3), byteAt l (k + 4),
      byteAt l (k + 5), byteAt l (k + 6), byteAt l (k + 7)] :=
  beBytes_field h

/-! ### One entry -/

/-- An entry as it is stored: reserved bytes 00H (R174). -/
theorem storedBytes_eq (h : l.length = tableEntrySize t) :
    storedBytes t l = (List.range (tableEntrySize t)).map (fun k => if reservedAt t k then 0 else byteAt l k) := by
  refine List.ext_getElem (by simp [storedBytes, h]) fun k hk _ => ?_
  have hlt : k < l.length := by simpa [storedBytes] using hk
  simp [storedBytes, Nat.mod_eq_of_lt (h ▸ hlt), byteAt, List.getElem?_eq_getElem hlt]

theorem profileBytes_profileOfBytes (h : l.length = 36) : profileBytes (profileOfBytes l) = storedBytes .profiles l := by
  have hfield : ∀ k, k + 2 ≤ 36 → beBytes 2 (be16At l k).toNat = [byteAt l k, byteAt l (k + 1)] := fun k hk =>
    beBytes_be16At (by omega)
  rw [storedBytes_eq (t := .profiles) h, profileBytes, profileOfBytes]
  simp only [hfield, Nat.reduceAdd, Nat.reduceLeDiff]
  rfl

theorem ruleBytes_ruleOfBytes (h : l.length = 36) : ruleBytes (ruleOfBytes l) = storedBytes .rules l := by
  have hfield : ∀ k, k + 4 ≤ 36 → beBytes 4 (be32At l k).toNat =
      [byteAt l k, byteAt l (k + 1), byteAt l (k + 2), byteAt l (k + 3)] := fun k hk => beBytes_be32At (by omega)
  have hnext : beBytes 2 (be16At l 4).toNat = [byteAt l 4, byteAt l 5] := beBytes_be16At (by omega)
  rw [storedBytes_eq (t := .rules) h, ruleBytes, ruleOfBytes]
  simp only [hfield, hnext, Nat.reduceAdd, Nat.reduceLeDiff]
  rfl

theorem entryBytes_writeEntry (hi : i < tableEntries t) (hl : l.length = tableEntrySize t) :
    entryBytes t i (writeEntry t i l b) = storedBytes t l := by
  cases t <;> simp only [tableEntries, tableEntrySize] at hi hl <;>
    simp only [entryBytes, writeEntry, dif_pos hi, Vector.getElem_set_self]
  case bankHeader =>
    obtain rfl : i = 0 := by omega
    have hhead : beBytes 2 (be16At l 0).toNat = [byteAt l 0, byteAt l 1] := beBytes_be16At (by omega)
    rw [storedBytes_eq (t := .bankHeader) hl, if_pos rfl, if_pos rfl, hhead]
    rfl
  case profiles => exact profileBytes_profileOfBytes hl
  case codeMap =>
    have hcode : beBytes 2 (be16At l 2).toNat = [byteAt l 2, byteAt l 3] := beBytes_be16At (by omega)
    rw [storedBytes_eq (t := .codeMap) hl, codeMapEntryBytes, codeMapEntryOfBytes, hcode]
    rfl
  case controllers =>
    have haddress := beBytes_be48At (l := l) (k := 2) (by omega)
    have hhead := beBytes_be16At (l := l) (k := 8) (by omega)
    rw [storedBytes_eq (t := .controllers) hl, controllerBytes, controllerOfBytes, haddress, hhead]
    rfl
  case sources =>
    have haddress := beBytes_be48At (l := l) (k := 2) (by omega)
    rw [storedBytes_eq (t := .sources) hl, sourceBytes, sourceOfBytes, haddress]
    rfl
  case rules => exact ruleBytes_ruleOfBytes hl
  case images =>
    have hmask := beBytes_be16At (l := l) (k := 2) (by omega)
    have hlength := beBytes_be32At (l := l) (k := 4) (by omega)
    have hcrc := beBytes_be32At (l := l) (k := 8) (by omega)
    have hlabel := beBytes_be64At (l := l) (k := 12) (by omega)
    rw [storedBytes_eq (t := .images) hl, imageBytes, imageOfBytes, hmask, hlength, hcrc, hlabel]
    rfl

theorem entryBytes_writeEntry_ne (h : k ≠ i) : entryBytes t k (writeEntry t i l b) = entryBytes t k b := by
  cases t <;> dsimp only [writeEntry] <;> split <;> dsimp only [entryBytes]
  case bankHeader.isTrue hi => rw [if_neg (by omega), if_neg (by omega)]
  all_goals split
  all_goals simp only [Vector.getElem_set_ne _ _ (Ne.symm h)]

theorem entryBytes_writeEntry_table (h : t' ≠ t) : entryBytes t' k (writeEntry t i l b) = entryBytes t' k b := by
  cases t <;> dsimp only [writeEntry] <;> split
  all_goals cases t' <;> simp only [entryBytes] <;> exact absurd rfl h

/-- A written entry leaves every other entry, of its table and of the others. -/
theorem entryBytes_writeEntry_other (h : t' ≠ t ∨ k ≠ i) : entryBytes t' k (writeEntry t i l b) = entryBytes t' k b := by
  by_cases ht : t' = t
  · subst ht
    exact entryBytes_writeEntry_ne (h.resolve_left (not_not.mpr rfl))
  · exact entryBytes_writeEntry_table ht

theorem entryBytes_writeRun_other (h : t' ≠ t ∨ k < i ∨ i + n ≤ k) (l : List Byte) (b : Bank) :
    entryBytes t' k (writeRun t n i l b) = entryBytes t' k b := by
  induction n generalizing i l b with
  | zero => rfl
  | succ n ih =>
    rw [writeRun, ih (h.imp_right (by omega)), entryBytes_writeEntry_other (h.imp_right (by omega))]

/-! ### A run of entries -/

theorem storedBytes_append (hl : l.length = tableEntrySize t) (m : List Byte) :
    storedBytes t (l ++ m) = storedBytes t l ++ storedBytes t m := by
  rw [storedBytes, List.mapIdx_append, storedBytes, storedBytes]
  refine congrArg (storedBytes t l ++ ·) (congrArg (fun f => m.mapIdx f) (funext fun k => funext fun x => ?_))
  rw [hl, Nat.add_mod_right]

/-- A run of entries written reads back as it is stored (R131, R132, R174). -/
theorem runBytes_writeRun (hi : i + n ≤ tableEntries t) (hl : l.length = n * tableEntrySize t) (b : Bank) :
    runBytes t n i (writeRun t n i l b) = storedBytes t l := by
  induction n generalizing i l b with
  | zero =>
    obtain rfl := List.eq_nil_of_length_eq_zero (hl.trans (Nat.zero_mul _))
    rfl
  | succ n ih =>
    rw [Nat.succ_mul] at hl
    have hfirst : (l.take (tableEntrySize t)).length = tableEntrySize t := by
      rw [List.length_take]
      omega
    rw [runBytes, writeRun, ih (by omega) (by rw [List.length_drop]; omega),
      entryBytes_writeRun_other (.inr (.inl (by omega))), entryBytes_writeEntry (by omega) hfirst,
      ← storedBytes_append hfirst, List.take_append_drop]

/-- Settles O11. -/
theorem writtenEntriesReadBack : Obligations.WrittenEntriesReadBack := fun _ _ _ l b hi hl =>
  ⟨runBytes_writeRun hi hl b, fun _ hk => entryBytes_writeRun_other (.inr hk) l b,
    fun _ _ ht => entryBytes_writeRun_other (.inl ht) l b⟩

/-! ### A whole bank (R175) -/

/-- What follows the entries that are written is not looked at. -/
theorem writeRun_append (hl : l.length = n * tableEntrySize t) (m : List Byte) (b : Bank) :
    writeRun t n i (l ++ m) b = writeRun t n i l b := by
  induction n generalizing i l b with
  | zero => rfl
  | succ n ih =>
    rw [Nat.succ_mul] at hl
    rw [writeRun, writeRun, List.take_append_of_le_length (by omega), List.drop_append_of_le_length (by omega),
      ih (by rw [List.length_drop]; omega)]

theorem be16At_eq {x : BitVec 16} (h : slice l k 2 = beBytes 2 x.toNat) : be16At l k = x := by
  rw [be16At_of_slice h, BitVec.ofNat_toNat, BitVec.setWidth_eq]

theorem be32At_eq {x : BitVec 32} (h : slice l k 4 = beBytes 4 x.toNat) : be32At l k = x := by
  rw [be32At_of_slice h, BitVec.ofNat_toNat, BitVec.setWidth_eq]

theorem be48At_eq {x : BitVec 48} (h : slice l k 6 = beBytes 6 x.toNat) : be48At l k = x := by
  rw [be48At_of_slice h, BitVec.ofNat_toNat, BitVec.setWidth_eq]

theorem be64At_eq {x : BitVec 64} (h : slice l k 8 = beBytes 8 x.toNat) : be64At l k = x := by
  rw [be64At_of_slice h, BitVec.ofNat_toNat, BitVec.setWidth_eq]

theorem be16At_head (x : BitVec 16) (rest : List Byte) : be16At (beBytes 2 x.toNat ++ rest) 0 = x := be16At_eq rfl

theorem be16At_tail (v n : Nat) (rest : List Byte) : be16At (beBytes 2 v ++ rest) (n + 2) = be16At rest n := rfl

/-- The offsets of a Profile entry: its last 20 bytes. -/
theorem profileBytes_drop (p : Profile) : (profileBytes p).drop 16 =
    beBytes 2 p.codeOffset.toNat ++ (beBytes 2 p.tagOffset.toNat ++ (beBytes 2 p.objectOffset.toNat ++
      (beBytes 2 p.valueOffset.toNat ++ (beBytes 2 p.statusOffset.toNat ++
        (beBytes 2 p.responseValueOffset.toNat ++ (beBytes 2 p.segmentNumberOffset.toNat ++
          (beBytes 2 p.segmentLengthOffset.toNat ++ (beBytes 2 p.segmentPayloadOffset.toNat ++ [0, 0])))))))) := by
  simp only [profileBytes, List.append_assoc]
  rfl

theorem profileOfBytes_profileBytes (p : Profile) : profileOfBytes (profileBytes p) = p := by
  have hmatch : be16At (profileBytes p) 2 = p.matchValue := be16At_eq rfl
  have hoffset := be16At_drop (profileBytes p) 16
  rw [profileBytes_drop] at hoffset
  have hcode : be16At (profileBytes p) 16 = p.codeOffset :=
    (hoffset 0).trans (by simp only [be16At_head])
  have htag : be16At (profileBytes p) 18 = p.tagOffset :=
    (hoffset 2).trans (by simp only [be16At_tail, be16At_head])
  have hobject : be16At (profileBytes p) 20 = p.objectOffset :=
    (hoffset 4).trans (by simp only [be16At_tail, be16At_head])
  have hvalue : be16At (profileBytes p) 22 = p.valueOffset :=
    (hoffset 6).trans (by simp only [be16At_tail, be16At_head])
  have hstatus : be16At (profileBytes p) 24 = p.statusOffset :=
    (hoffset 8).trans (by simp only [be16At_tail, be16At_head])
  have hresponse : be16At (profileBytes p) 26 = p.responseValueOffset :=
    (hoffset 10).trans (by simp only [be16At_tail, be16At_head])
  have hnumber : be16At (profileBytes p) 28 = p.segmentNumberOffset :=
    (hoffset 12).trans (by simp only [be16At_tail, be16At_head])
  have hlength : be16At (profileBytes p) 30 = p.segmentLengthOffset :=
    (hoffset 14).trans (by simp only [be16At_tail, be16At_head])
  have hpayload : be16At (profileBytes p) 32 = p.segmentPayloadOffset :=
    (hoffset 16).trans (by simp only [be16At_tail, be16At_head])
  rw [profileOfBytes, hmatch, hcode, htag, hobject, hvalue, hstatus, hresponse, hnumber, hlength, hpayload]
  rfl

theorem codeMapEntryOfBytes_codeMapEntryBytes (e : CodeMapEntry) : codeMapEntryOfBytes (codeMapEntryBytes e) = e := by
  have hcode : be16At (codeMapEntryBytes e) 2 = e.code := be16At_eq rfl
  rw [codeMapEntryOfBytes, hcode]
  rfl

theorem controllerOfBytes_controllerBytes (e : Controller) : controllerOfBytes (controllerBytes e) = e := by
  have haddress : be48At (controllerBytes e) 2 = e.address := be48At_eq rfl
  have hhead : be16At (controllerBytes e) 8 = e.chainHead := be16At_eq rfl
  rw [controllerOfBytes, haddress, hhead]
  rfl

theorem sourceOfBytes_sourceBytes (e : Source) : sourceOfBytes (sourceBytes e) = e := by
  have haddress : be48At (sourceBytes e) 2 = e.address := be48At_eq rfl
  rw [sourceOfBytes, haddress]
  rfl

theorem ruleOfBytes_ruleBytes (r : Rule) : ruleOfBytes (ruleBytes r) = r := by
  have hnext : be16At (ruleBytes r) 4 = r.next := be16At_eq rfl
  have hfirst : be32At (ruleBytes r) 10 = r.objectFirst := be32At_eq rfl
  have hlast : be32At (ruleBytes r) 14 = r.objectLast := be32At_eq rfl
  have hlow : be32At (ruleBytes r) 18 = r.low := be32At_eq rfl
  have hhigh : be32At (ruleBytes r) 22 = r.high := be32At_eq rfl
  have hstep : be32At (ruleBytes r) 26 = r.step := be32At_eq rfl
  have hgrid : be32At (ruleBytes r) 30 = r.grid := be32At_eq rfl
  rw [ruleOfBytes, hnext, hfirst, hlast, hlow, hhigh, hstep, hgrid]
  rfl

theorem imageOfBytes_imageBytes (e : ApprovedImage) : imageOfBytes (imageBytes e) = e := by
  have hmask : be16At (imageBytes e) 2 = e.mask := be16At_eq rfl
  have hlength : be32At (imageBytes e) 4 = e.length := be32At_eq rfl
  have hcrc : be32At (imageBytes e) 8 = e.crc := be32At_eq rfl
  have hlabel : be64At (imageBytes e) 12 = e.label := be64At_eq rfl
  rw [imageOfBytes, hmask, hlength, hcrc, hlabel]
  rfl

theorem vector_eq_of_entries {α : Type} {m : Nat} {x y : Vector α m} {f : α → List Byte} {g : List Byte → α}
    (hfg : ∀ a, g (f a) = a) (h : ∀ i : Fin m, f x[i] = f y[i]) : x = y :=
  vector_ext fun i => by rw [← hfg x[i], h i, hfg]

/-- A bank is what its entries are. -/
theorem bank_eq_of_entries (h : ∀ t k, k < tableEntries t → entryBytes t k b = entryBytes t k c) : b = c := by
  have hhead : b.commonHead = c.commonHead := by
    have hbytes : beBytes 2 b.commonHead.toNat ++ [0, 0] = beBytes 2 c.commonHead.toNat ++ [0, 0] :=
      h .bankHeader 0 (by decide)
    have hread : ∀ x : BitVec 16, be16At (beBytes 2 x.toNat ++ [0, 0]) 0 = x := fun x => be16At_eq rfl
    rw [← hread b.commonHead, hbytes, hread]
  have hprofiles : b.profiles = c.profiles := vector_eq_of_entries profileOfBytes_profileBytes fun i => by
    simpa [entryBytes] using h .profiles i.val i.isLt
  have hcodeMap : b.codeMap = c.codeMap := vector_eq_of_entries codeMapEntryOfBytes_codeMapEntryBytes fun i => by
    simpa [entryBytes] using h .codeMap i.val i.isLt
  have hcontrollers : b.controllers = c.controllers :=
    vector_eq_of_entries controllerOfBytes_controllerBytes fun i => by
      simpa [entryBytes] using h .controllers i.val i.isLt
  have hsources : b.sources = c.sources := vector_eq_of_entries sourceOfBytes_sourceBytes fun i => by
    simpa [entryBytes] using h .sources i.val i.isLt
  have hrules : b.rules = c.rules := vector_eq_of_entries ruleOfBytes_ruleBytes fun i => by
    simpa [entryBytes] using h .rules i.val i.isLt
  have himages : b.images = c.images := vector_eq_of_entries imageOfBytes_imageBytes fun i => by
    simpa [entryBytes] using h .images i.val i.isLt
  cases b
  cases c
  simp_all only

theorem writeEntry_entryBytes (hk : k < tableEntries t) :
    entryBytes t k (writeEntry t k (entryBytes t k b) b) = entryBytes t k b := by
  cases t <;> simp only [tableEntries] at hk <;>
    simp only [entryBytes, writeEntry, dif_pos hk, Vector.getElem_set_self]
  case bankHeader =>
    have hread : be16At (beBytes 2 b.commonHead.toNat ++ [0, 0]) 0 = b.commonHead := be16At_eq rfl
    obtain rfl : k = 0 := by omega
    simp only [if_pos, hread]
  case profiles => rw [profileOfBytes_profileBytes]
  case codeMap => rw [codeMapEntryOfBytes_codeMapEntryBytes]
  case controllers => rw [controllerOfBytes_controllerBytes]
  case sources => rw [sourceOfBytes_sourceBytes]
  case rules => rw [ruleOfBytes_ruleBytes]
  case images => rw [imageOfBytes_imageBytes]

/-- An entry as it is held has its reserved bytes 00H already. -/
theorem storedBytes_entryBytes (hk : k < tableEntries t) : storedBytes t (entryBytes t k b) = entryBytes t k b := by
  rw [← entryBytes_writeEntry (b := b) hk (entryBytes_length t k b hk), writeEntry_entryBytes hk]

theorem storedBytes_runBytes (h : i + n ≤ tableEntries t) : storedBytes t (runBytes t n i b) = runBytes t n i b := by
  induction n generalizing i with
  | zero => rfl
  | succ n ih =>
    rw [runBytes, storedBytes_append (entryBytes_length t i b (by omega)), storedBytes_entryBytes (by omega),
      ih (by omega)]

/-- The same runs hold the same entries. -/
theorem entryBytes_of_runBytes (hi : i + n ≤ tableEntries t) (h : runBytes t n i b = runBytes t n i c)
    (hik : i ≤ k) (hk : k < i + n) : entryBytes t k b = entryBytes t k c := by
  induction n generalizing i with
  | zero => omega
  | succ n ih =>
    obtain ⟨hfirst, hrest⟩ := List.append_inj h
      ((entryBytes_length t i b (by omega)).trans (entryBytes_length t i c (by omega)).symm)
    rcases Nat.eq_or_lt_of_le hik with rfl | hlt
    · exact hfirst
    · exact ih (by omega) hrest (by omega) (by omega)

/-- The tables read from their bytes are the bank's own, and the others are as before. -/
theorem entryBytes_bankOfTables {ts : List TableId} (hts : ts.Nodup) (hk : k < tableEntries t) (b c : Bank) :
    entryBytes t k (bankOfTables ts (ts.flatMap (fun t => runBytes t (tableEntries t) 0 b)) c) =
      if t ∈ ts then entryBytes t k b else entryBytes t k c := by
  induction ts generalizing c with
  | nil => rfl
  | cons t' ts ih =>
    obtain ⟨hnot, hrest⟩ := List.nodup_cons.mp hts
    have hlength : (runBytes t' (tableEntries t') 0 b).length = tableEntries t' * tableEntrySize t' :=
      runBytes_length t' _ 0 b (by omega)
    rw [List.flatMap_cons, bankOfTables, ← hlength, List.drop_left, writeRun_append hlength, ih hrest]
    by_cases ht : t = t'
    · subst ht
      rw [if_neg hnot, if_pos List.mem_cons_self]
      refine entryBytes_of_runBytes (n := tableEntries t) (i := 0) (by omega) ?_ (by omega) (by omega)
      rw [runBytes_writeRun (by omega) hlength, storedBytes_runBytes (by omega)]
    · rw [entryBytes_writeRun_other (.inl ht)]
      simp only [List.mem_cons, ht, false_or]

/-- Settles O10. -/
theorem bankImageRoundTrip : Obligations.BankImageRoundTrip := fun b =>
  bank_eq_of_entries fun t _ hk =>
    (entryBytes_bankOfTables (by decide) hk b {}).trans (if_pos (Consistency.mem_allTables t))

end Sys2Proof.Proofs.Entries
end

section
/-! The end of STARTING: the image read, its classes, and the state it leaves (O8, O9). -/

namespace Sys2Proof.Proofs.Starts

open Sys2Proof Sys2Proof.Machine Sys2Proof.Claims Sys2Proof.Laws Sys2Proof.Proofs Sys2Proof.Proofs.ResetAndSave
open Sys2Proof.Proofs.ManagementLink Sys2Proof.Proofs.Expiries Sys2Proof.Proofs.Arrivals
open Sys2Proof.Proofs.Queries Sys2Proof.Proofs.SettingsBlocks Sys2Proof.Proofs.Layouts Sys2Proof.Proofs.Entries

variable {s u : State}

/-! ### Runs of the memory -/

/-- A run of the memory looks at the cells from its address on alone. -/
theorem memoryRun_congr {m m' : List (Nat × Byte)} {a : Nat}
    (h : m.dropWhile (fun c => decide (c.1 < a)) = m'.dropWhile (fun c => decide (c.1 < a))) (n : Nat) :
    memoryRun n a m = memoryRun n a m' := by
  cases n with
  | zero => rfl
  | succ n => rw [memoryRun, memoryRun, h]

theorem dropWhile_dropWhile (m : List (Nat × Byte)) {a b : Nat} (h : a ≤ b) :
    (m.dropWhile (fun c => decide (c.1 < a))).dropWhile (fun c => decide (c.1 < b)) =
      m.dropWhile (fun c => decide (c.1 < b)) := by
  induction m with
  | nil => rfl
  | cons c rest ih =>
    by_cases hc : c.1 < a
    · rw [List.dropWhile_cons_of_pos (by simpa using hc), ih,
        List.dropWhile_cons_of_pos (l := rest) (by simp only [decide_eq_true_eq]; omega)]
    · rw [List.dropWhile_cons_of_neg (l := rest) (by simpa using hc)]

theorem memoryRun_add (n k a : Nat) (m : List (Nat × Byte)) :
    memoryRun (n + k) a m = memoryRun n a m ++ memoryRun k (a + n) m := by
  induction n generalizing a m with
  | zero => rw [Nat.zero_add, Nat.add_zero]; rfl
  | succ n ih =>
    have hdrop := dropWhile_dropWhile m (show a ≤ a + (n + 1) by omega)
    rw [show n + 1 + k = n + k + 1 by omega, memoryRun, memoryRun]
    cases hrest : m.dropWhile (fun c => decide (c.1 < a)) with
    | nil =>
      rw [hrest] at hdrop
      dsimp only
      rw [ih, List.cons_append, Nat.add_right_comm a 1 n, Nat.add_assoc, memoryRun_congr hdrop]
    | cons c rest =>
      rw [hrest] at hdrop
      dsimp only
      split
      · next hc =>
        rw [List.dropWhile_cons_of_pos (by simp only [decide_eq_true_eq]; omega)] at hdrop
        rw [ih, List.cons_append, Nat.add_right_comm a 1 n, Nat.add_assoc, memoryRun_congr hdrop]
      · rw [ih, List.cons_append, Nat.add_right_comm a 1 n, Nat.add_assoc, memoryRun_congr hdrop]

theorem memoryRun_length (n a : Nat) (m : List (Nat × Byte)) : (memoryRun n a m).length = n := by
  induction n generalizing a m with
  | zero => rfl
  | succ n ih =>
    rw [memoryRun]
    split
    · rw [List.length_cons, ih]
    · split <;> rw [List.length_cons, ih]

/-! ### The identity record (R165) -/

theorem identityStation_eq (m : List (Nat × Byte)) :
    identityStation m =
      if be32At (memoryRun 4 6 m) 0 = crc32 (memoryRun 6 0 m) ∧ isGroup (be48At (memoryRun 6 0 m) 0) = false ∧
          be48At (memoryRun 6 0 m) 0 ≠ 0 then
        be48At (memoryRun 6 0 m) 0
      else fallbackStation := by
  have hrun : memoryRun 10 0 m = memoryRun 6 0 m ++ memoryRun 4 6 m := memoryRun_add 6 4 0 m
  have hslice : slice (memoryRun 10 0 m) 0 6 = memoryRun 6 0 m := by
    rw [hrun]
    have := slice_append_left (memoryRun 6 0 m) (memoryRun 4 6 m)
    rwa [memoryRun_length] at this
  have hself : slice (memoryRun 6 0 m) 0 6 = memoryRun 6 0 m := by
    rw [slice, List.drop_zero, List.take_of_length_le (by rw [memoryRun_length])]
  have haddress : be48At (memoryRun 10 0 m) 0 = be48At (memoryRun 6 0 m) 0 := by
    rw [be48At, be48At, hslice, hself]
  have hcheck : be32At (memoryRun 10 0 m) 6 = be32At (memoryRun 4 6 m) 0 := by
    have := slice_append_right (memoryRun 6 0 m) (memoryRun 4 6 m) 0 4
    rw [memoryRun_length, ← hrun] at this
    exact congrArg (fun l => BitVec.ofNat 32 (beNat l)) this
  rw [identityStation, stationOf, haddress, hcheck, hslice]

/-- A memory that does not answer gives the fallback address. -/
theorem stationOf_blank : stationOf (List.replicate 10 memoryBlank) = fallbackStation := by decide +kernel

/-! ### The settings block (R166, R175) -/

theorem settingsOfBlock_of_fails {l : List Byte} (h : SettingsFail l) : settingsOfBlock l = none := by
  rw [settingsOfBlock]
  rcases settingsFail_iff.mp h with h | h | ⟨hone, hvlan⟩
  · split
    · rfl
    · exact settingsOf_of_fails h _ _
  · have hnone : noticeOfBlock l = none := by
      rw [noticeOfBlock, if_neg (by bv_omega), if_neg (by bv_omega)]
    rw [hnone]
  · have hnone : noticeOfBlock l = none := by
      rw [noticeOfBlock, if_neg (by bv_omega), if_neg (by bv_omega)]
    rw [hnone]

theorem noticeOfBlock_of_passes {l : List Byte} (hset : (byteAt l 36).toNat ≤ 1)
    (hvlan : byteAt l 36 = 1 → (byteAt l 37).toNat ≤ 1) :
    noticeOfBlock l = some (if byteAt l 36 = 1 then
      some ⟨be48At l 40, if byteAt l 37 = 1 then some (be16At l 38) else none⟩ else none) := by
  by_cases hone : byteAt l 36 = 1
  · rw [noticeOfBlock, if_neg (by rw [hone]; decide), if_pos ⟨hone, hvlan hone⟩, if_pos hone]
  · rw [noticeOfBlock, if_pos (by bv_omega), if_neg hone]

theorem settingsOfBlock_of_passes {l : List Byte} (h : ¬ SettingsFail l) :
    settingsOfBlock l = some
      { sources := (List.range (byteAt l 0).toNat).map (placeAt l)
        cellManagement := decide (byteAt l 1 = 1)
        startEnforce := decide (byteAt l 2 = 2)
        lockAtStart := decide (byteAt l 3 = 1)
        token := be64At l 28
        notice :=
          if byteAt l 36 = 1 then some ⟨be48At l 40, if byteAt l 37 = 1 then some (be16At l 38) else none⟩
          else none } := by
  rw [settingsFail_iff, not_or, not_or, not_and] at h
  obtain ⟨hhead, hset, hvlan⟩ := h
  rw [settingsOfBlock, noticeOfBlock_of_passes (Nat.not_lt.mp hset) fun hone => Nat.not_lt.mp (hvlan hone)]
  exact settingsOf_of_not_fails hhead _ _

/-! ### The state installed and the records of R168 -/

/-- A port UP if it was, or if its link indication is high. -/
def withLink (s : State) (p : Port) (high : Bool) : State := s.setPort p { s.port p with up := (s.port p).up || high }

/-- The record of a port that comes UP at the end of STARTING. -/
def linkRecords (p : Port) (high : Bool) (clock : Nat) : List EventRecord :=
  if high = true then [{ time := clock, kind := .linkChanged, extra := some (linkExtra p true) }] else []

theorem portUpAtStart_eq (p : Port) (high : Bool) (s : State) :
    portUpAtStart p high s = addRecords (withLink s p high) (linkRecords p high s.clock) := by
  unfold withLink linkRecords
  cases high with
  | true => rw [Bool.or_true]; rfl
  | false =>
    rw [Bool.or_false]
    cases p <;> rfl

theorem addRecords_events_ne {l : List EventRecord} (h : s.events ≠ []) : (addRecords s l).events ≠ [] := by
  induction l generalizing s with
  | nil => exact h
  | cons e rest ih => exact ih (record_events_ne_nil s e)

/-- A port's fields and records do not touch each other. -/
theorem withLink_addRecords (p : Port) (high : Bool) (l : List EventRecord) (s : State) :
    withLink (addRecords s l) p high = addRecords (withLink s p high) l := by
  induction l generalizing s with
  | nil => rfl
  | cons e rest ih =>
    have hrecord : withLink (s.record e) p high = (withLink s p high).record e := by
      by_cases hroom : s.events.length < 64
      · have hs : s.record e = { s with events := s.events ++ [e] } := if_pos hroom
        rw [hs]
        cases p <;> exact (if_pos hroom).symm
      · have hs : s.record e = { s with overflow := true } := if_neg hroom
        rw [hs]
        cases p <;> exact (if_neg hroom).symm
    rw [addRecords_cons, ih, hrecord, addRecords_cons]

/-- The state that STARTED leaves, once its NOTICE is offered. -/
def begun (u : State) (station : MacAddress) (outcome : StartOutcome) (t : Settings) (b : Bank) : State :=
  noticeAfter u ((installStart u station outcome t b).record
    { time := u.clock, kind := .started, reason := some (outcomeReason outcome) })

theorem begun_frame (u : State) (station : MacAddress) (outcome : StartOutcome) (t : Settings) (b : Bank) :
    ∃ n k l o, begun u station outcome t b =
      { installStart u station outcome t b with net := n, management := k, events := l, overflow := o } ∧ l ≠ [] := by
  obtain ⟨n, k, hn⟩ := noticeAfter_frame u ((installStart u station outcome t b).record
    { time := u.clock, kind := .started, reason := some (outcomeReason outcome) })
  obtain ⟨l, o, hr⟩ := record_frame (installStart u station outcome t b)
    { time := u.clock, kind := .started, reason := some (outcomeReason outcome) }
  have hne := record_events_ne_nil (installStart u station outcome t b)
    { time := u.clock, kind := .started, reason := some (outcomeReason outcome) }
  rw [hr] at hne
  exact ⟨n, k, l, o, by rw [begun, hn, hr], hne⟩

/-- Only the first record of a start can give rise to a NOTICE: the Event Queue is not empty after it (R162). -/
theorem noticing_addRecords {f : State → State} {v : State} {l : List EventRecord} (hs : s.events ≠ [])
    (hf : f s = addRecords v l) : noticing f s = addRecords v l := by
  rw [noticing, noticeAfter_of_quiet (.inl hs), hf]

theorem startGuards_eq (b : Bank) :
    startGuards b = Vector.ofFn (fun i => if slotUsed b i = true then some {} else none) :=
  vector_ext fun i => by
    rw [Guards.startGuards_getElem, ofFn_get]
    rfl

/-- The end of STARTING is the state installed with the records of R168. -/
theorem finishStart_eq (u : State) (station : MacAddress) (outcome : StartOutcome) (t : Settings) (b : Bank) :
    finishStart (installStart u station outcome t b) outcome = startedAs u station outcome t b := by
  have hfirst : noticing
      (fun s => s.record { time := s.clock, kind := .started, reason := some (outcomeReason outcome) })
      (installStart u station outcome t b) = begun u station outcome t b := rfl
  have hsame : startedAs u station outcome t b = addRecords
      (withLink (withLink (begun u station outcome t b) .net u.netLink) .cell u.cellLink)
      (linkRecords .net u.netLink u.clock ++ linkRecords .cell u.cellLink u.clock ++
        [{ time := u.clock, kind := .modeChanged, extra := some (if t.startEnforce = true then 2 else 1) }]) := by
    rw [startedAs, ← startGuards_eq]
    rfl
  obtain ⟨n, k, l, o, hv, hne⟩ := begun_frame u station outcome t b
  generalize begun u station outcome t b = v at hfirst hsame hv
  have hclock : v.clock = u.clock := by rw [hv]; rfl
  have hnetLink : v.netLink = u.netLink := by rw [hv]; rfl
  have hcellLink : v.cellLink = u.cellLink := by rw [hv]; rfl
  have hmode : (modeCode v.mode).toNat = if t.startEnforce = true then 2 else 1 := by
    rw [hv]
    dsimp only [installStart]
    cases t.startEnforce <;> rfl
  have hevents : v.events ≠ [] := by rw [hv]; exact hne
  have hnet := noticing_addRecords hevents (portUpAtStart_eq .net v.netLink v)
  set w := withLink v .net v.netLink with hw
  have hwords : w.clock = v.clock ∧ w.cellLink = v.cellLink ∧ w.mode = v.mode ∧ w.events = v.events :=
    ⟨rfl, rfl, rfl, rfl⟩
  obtain ⟨hwclock, hwlink, hwmode, hwevents⟩ := hwords
  set lower := linkRecords .net v.netLink v.clock with hlower
  have hframe := addRecords_frame w lower
  have hkept : (addRecords w lower).cellLink = w.cellLink := by
    obtain ⟨x, y, h⟩ := hframe
    rw [h]
  have hcell := noticing_addRecords (addRecords_events_ne (l := lower) (hwevents ▸ hevents))
    (portUpAtStart_eq .cell (addRecords w lower).cellLink (addRecords w lower))
  rw [withLink_addRecords, ← addRecords_append, addRecords_clock, hkept, hwlink, hwclock] at hcell
  have hlast : ∀ x k, (addRecords x k).events ≠ [] → (addRecords x k).mode = v.mode → (addRecords x k).clock = v.clock →
      noticing (fun s => s.record
        { time := s.clock, kind := .modeChanged, extra := some (modeCode s.mode).toNat }) (addRecords x k) =
      addRecords x (k ++ [{ time := v.clock, kind := .modeChanged, extra := some (modeCode v.mode).toNat }]) := by
    intro x k hne hm hc
    rw [noticing, noticeAfter_of_quiet (.inl hne), hm, hc, addRecords_append]
    rfl
  rw [finishStart, hfirst]
  rw [hnet, hkept, hwlink, hcell, hlast]
  · rw [hsame, hw, hlower, hnetLink, hcellLink, hclock, hmode]
  · exact addRecords_events_ne (hwevents ▸ hevents)
  · obtain ⟨x, y, h⟩ := addRecords_frame (withLink w .cell v.cellLink) (lower ++ linkRecords .cell v.cellLink v.clock)
    rw [h]
    rfl
  · rw [addRecords_clock]
    rfl

/-! ### The classes of an image (R165, R166) -/

theorem endStarting_eq (u : State) (answers : Bool) {outcome : StartOutcome} {content : Option (Settings × Bank)}
    (h : classifyImage (stationOf (loaderRead u answers 10 0)) (loaderRead u answers 16 headerAddress)
      (loaderRead u answers bodyLength bodyAddress) = (outcome, content)) :
    endStarting u answers =
      startedAs u (stationOf (loaderRead u answers 10 0)) outcome (content.getD ({}, {})).1 (content.getD ({}, {})).2 := by
  rw [endStarting, h, finishStart_eq]

theorem classifyImage_noImage {station : MacAddress} {header body : List Byte} (h : be32At header 0 ≠ imageMarker) :
    classifyImage station header body = (.noImage, none) := if_pos h

theorem classifyImage_badImage {station : MacAddress} {header body : List Byte} (hmarker : be32At header 0 = imageMarker)
    (h : byteAt header 4 ≠ 1 ∨ byteAt header 5 ≠ markComplete ∨ (be32At header 8).toNat ≠ 11732 ∨
      crc32 body ≠ be32At header 12 ∨ settingsOfBlock (body.take 48) = none ∨
      firstFailure station (bankOfBytes (body.drop 48)) ≠ none) :
    classifyImage station header body = (.badImage, none) := by
  rw [classifyImage, if_neg (not_not.mpr hmarker)]
  by_cases hhead : byteAt header 4 ≠ 1 ∨ byteAt header 5 ≠ markComplete ∨ (be32At header 8).toNat ≠ bodyLength
  · exact if_pos hhead
  · rw [if_neg hhead]
    by_cases hcrc : crc32 body ≠ be32At header 12
    · exact if_pos hcrc
    · rw [if_neg hcrc]
      have hcontent : settingsOfBlock (body.take 48) = none ∨
          firstFailure station (bankOfBytes (body.drop 48)) ≠ none := by
        rcases h with h | h | h | h | h
        · exact absurd (.inl h) hhead
        · exact absurd (.inr (.inl h)) hhead
        · exact absurd (.inr (.inr h)) hhead
        · exact absurd h hcrc
        · exact h
      have hnone : checkedBody station (body.take 48 ++ body.drop 48) = none := by
        rw [List.take_append_drop, checkedBody]
        rcases hcontent with hset | hbank
        · rw [hset]
        · split
          · rfl
          · exact if_neg hbank
      rw [List.take_append_drop] at hnone
      rw [hnone]

theorem classifyImage_goodImage {station : MacAddress} {header body : List Byte} {t : Settings} {b : Bank}
    (hheader : header = headerBytes markComplete body)
    (hsettings : settingsOfBlock (body.take 48) = some t) (hbank : bankOfBytes (body.drop 48) = b)
    (hpasses : firstFailure station b = none) :
    classifyImage station header body = (.goodImage, some (t, b)) := by
  have hchecked : checkedBody station body = some (t, b) := by
    rw [checkedBody, hsettings, hbank]
    exact if_pos hpasses
  have hmarker : be32At header 0 = imageMarker := by rw [hheader]; exact be32At_eq rfl
  have hbytes : byteAt header 4 = 1 ∧ byteAt header 5 = markComplete := by rw [hheader]; exact ⟨rfl, rfl⟩
  have hsize : be32At header 8 = BitVec.ofNat 32 bodyLength := by rw [hheader]; exact be32At_of_slice rfl
  have hcrc : be32At header 12 = crc32 body := by rw [hheader]; exact be32At_eq rfl
  rw [classifyImage, hmarker, hbytes.1, hbytes.2, hsize, hcrc, hchecked, if_neg (not_not.mpr rfl),
    if_neg (by decide), if_neg (not_not.mpr rfl)]

theorem exec_startingEnd {dt : Nat} {answers : Bool} (hreset : (s.elapse dt).resetN = true)
    (hmode : (s.elapse dt).mode = .starting) :
    exec (.startingEnd dt answers) s = .next (endStarting (s.elapse dt) answers) :=
  congrArg Host.Outcome.next (if_pos ⟨hreset, hmode⟩)

/-- Settles O8. -/
theorem startWithoutMemoryFallsBack : Obligations.StartWithoutMemoryFallsBack := by
  refine ⟨fun dt answers s h => congrArg Host.Outcome.next (if_neg ?_), fun m a ha right hright => ?_,
    fun l => ⟨settingsOfBlock_of_fails, settingsOfBlock_of_passes⟩, fun dt s hreset hmode => ⟨?_, ?_⟩⟩
  · rintro ⟨hreset, hmode⟩
    rcases h with h | h
    · rw [hreset] at h
      cases h
    · exact h hmode
  · subst ha
    rw [identityStation_eq]
    exact ⟨fun h => if_pos (hright.mp h), fun h => if_neg (mt hright.mpr h)⟩
  · have hblank : be32At (List.replicate 16 memoryBlank) 0 ≠ imageMarker := by decide +kernel
    have hclass := classifyImage_noImage (station := stationOf (loaderRead (s.elapse dt) false 10 0))
      (header := loaderRead (s.elapse dt) false 16 headerAddress)
      (body := loaderRead (s.elapse dt) false bodyLength bodyAddress) hblank
    have hstation : stationOf (loaderRead (s.elapse dt) false 10 0) = fallbackStation := stationOf_blank
    rw [exec_startingEnd hreset hmode, endStarting_eq _ _ hclass, hstation]
    rfl
  · rintro header body rfl rfl
    refine ⟨fun hmarker => ?_, fun hmarker hbad => ?_⟩
    · have hclass := classifyImage_noImage (station := stationOf (loaderRead (s.elapse dt) true 10 0))
        (header := loaderRead (s.elapse dt) true 16 headerAddress)
        (body := loaderRead (s.elapse dt) true bodyLength bodyAddress) hmarker
      rw [exec_startingEnd hreset hmode, endStarting_eq _ _ hclass]
      rfl
    · have hclass := classifyImage_badImage (station := stationOf (loaderRead (s.elapse dt) true 10 0))
        (header := loaderRead (s.elapse dt) true 16 headerAddress)
        (body := loaderRead (s.elapse dt) true bodyLength bodyAddress) hmarker hbad
      rw [exec_startingEnd hreset hmode, endStarting_eq _ _ hclass]
      rfl

/-! ### A saved image (R170) -/

/-- The last 12 bytes of a settings block: the notice destination and two reserved bytes. -/
def noticeBlock (n : Option NoticeDestination) : List Byte :=
  (match n with
    | some n => 1 :: (noticeVlanBytes n.vlan ++ beBytes 6 n.address.toNat)
    | none => zeros 10) ++ zeros 2

theorem settingsBytes_eq (t : Settings) :
    settingsBytes t = settingsHead t ++ addressPlaces t.sources ++ beBytes 8 t.token.toNat ++ noticeBlock t.notice := by
  unfold settingsBytes noticeBlock
  rw [List.append_assoc] <;> rfl

theorem noticeOfBlock_noticeBlock {l : List Byte} {n : Option NoticeDestination} (h : l.drop 36 = noticeBlock n) :
    noticeOfBlock l = some n := by
  have hbyte : ∀ k, byteAt l (36 + k) = byteAt (noticeBlock n) k := fun k => by rw [byteAt_drop, h]
  have hset : byteAt l 36 = byteAt (noticeBlock n) 0 := hbyte 0
  have hvlan : byteAt l 37 = byteAt (noticeBlock n) 1 := hbyte 1
  have hcontrol : be16At l 38 = be16At (noticeBlock n) 2 := by rw [← h]; exact be16At_drop l 36 2
  have haddress : be48At l 40 = be48At (noticeBlock n) 4 := by
    rw [← h, be48At, be48At, slice, slice, List.drop_drop]
  have hread : ∀ d : NoticeDestination, be48At (noticeBlock (some d)) 4 = d.address := by
    rintro ⟨a, _ | c⟩ <;> exact be48At_eq rfl
  rw [noticeOfBlock, hset, hvlan, hcontrol, haddress]
  rcases n with _ | d
  · rfl
  · rw [hread]
    obtain ⟨a, _ | c⟩ := d
    · rfl
    · have hc : be16At (noticeBlock (some ⟨a, some c⟩)) 2 = c := be16At_eq rfl
      rw [hc]
      rfl

/-- The settings block of an image reads back. -/
theorem settingsOfBlock_settingsBytes {t : Settings} (h : SettingsLegal t) :
    settingsOfBlock (settingsBytes t) = some t := by
  have htoken : be64At (settingsBytes t) 28 = t.token := by
    have hsplit : settingsBytes t = (settingsHead t ++ addressPlaces t.sources) ++ (beBytes 8 t.token.toNat ++
        noticeBlock t.notice) := by
      rw [settingsBytes_eq]
      simp only [List.append_assoc]
    rw [hsplit]
    exact be64At_eq (slice_middle (by rw [List.length_append, addressPlaces_length]; rfl) (beBytes_length _ _))
  have hnotice : noticeOfBlock (settingsBytes t) = some t.notice := by
    have hdrop : (settingsBytes t).drop 36 = noticeBlock t.notice := by
      rw [settingsBytes_eq]
      exact List.drop_left' (by
        rw [List.length_append, List.length_append, addressPlaces_length, beBytes_length]
        rfl)
    exact noticeOfBlock_noticeBlock hdrop
  rw [settingsOfBlock, hnotice, htoken]
  dsimp only
  rw [settingsBytes_eq, List.append_assoc, List.append_assoc, addressPlaces_eq h.1, List.append_assoc]
  exact settingsOf_legal h _ _ _

/-- Settles O9. -/
theorem savedImageStartsTheSavedPolicy : Obligations.SavedImageStartsTheSavedPolicy := by
  rintro dt s t b hreset hmode ⟨hheader, hbody⟩ hlegal hpasses
  have htake : (bodyBytes t b).take 48 = settingsBytes t := List.take_left' (settingsBytes_length t)
  have hdrop : (bodyBytes t b).drop 48 = bankBytes b := List.drop_left' (settingsBytes_length t)
  have hclass := classifyImage_goodImage (station := identityStation (s.elapse dt).memory) hheader
    (htake ▸ settingsOfBlock_settingsBytes hlegal) (hdrop ▸ bankImageRoundTrip b) hpasses
  rw [← hbody] at hclass
  rw [exec_startingEnd hreset hmode, endStarting_eq (s.elapse dt) true hclass]
  rfl

end Sys2Proof.Proofs.Starts
end

section
/-! COMMIT: the checks, and the swap with what it clears (O42). -/

namespace Sys2Proof.Proofs.Commits

open Sys2Proof Sys2Proof.Machine Sys2Proof.Claims Sys2Proof.Laws Sys2Proof.Proofs Sys2Proof.Proofs.Changes
open Sys2Proof.Proofs.ResetAndSave Sys2Proof.Proofs.ManagementLink Sys2Proof.Proofs.Guards Sys2Proof.Proofs.Expiries
open Sys2Proof.Proofs.Ports Sys2Proof.Proofs.BankRequests Sys2Proof.Proofs.Consistency

variable {u s : State} {r : Request}

/-! ### The guards of the changed slots (R107) -/

/-- The records of a changed slot: its window closed, or the slot thawed. -/
def slotRecords (s : State) (i : Fin 16) : List EventRecord :=
  (if inWindow s i then [closedRecord s .policy none i] else []) ++
    (if isFrozen s i then [{ time := s.clock, kind := .thawed, slot := some i }] else [])

theorem slotRecords_congr {v : State} {i : Fin 16} (hclock : v.clock = s.clock) (h : v.guards[i] = s.guards[i]) :
    slotRecords v i = slotRecords s i := by
  rw [slotRecords, inWindow_congr h, isFrozen_congr h, closedRecord, hclock]
  rfl

theorem commitSlot_eq (usedNew : Bool) (s : State) (i : Fin 16) :
    commitSlot usedNew s i =
      addRecords (State.slots s (s.guards.set i (if usedNew then some freshGuard else none)) s.loads s.alert)
        (slotRecords s i) := by
  generalize hnew : (if usedNew then some freshGuard else none : Option SlotGuard) = new
  have hcommit : commitSlot usedNew s i = (thawSlot (closeWindow s i .policy none) i none).setGuard i new := by
    rw [← hnew]
    rfl
  rw [hcommit]
  by_cases hw : inWindow s i = true
  · obtain ⟨g, d, hg, hd⟩ := inWindow_iff.mp hw
    have hclose : closeWindow s i .policy none =
        (s.setGuard i (some { g with state := .normal })).record (closedRecord s .policy none i) := by
      rw [closeWindow, if_pos hw, if_pos rfl, withGuardState, hg]
      rfl
    have hcalm : isFrozen (closeWindow s i .policy none) i = false := by
      rw [isFrozen, guardOf, hclose, record_guards, Time.setGuard_get, if_pos rfl]
      rfl
    have hnot : isFrozen s i = false := by
      rw [isFrozen, guardOf, hg]
      simp only [Option.map_some, hd]
      rfl
    rw [thawSlot, if_neg (by rw [hcalm]; decide), hclose, setGuard_eq_slots, record_guards, record_loads, record_alert,
      record_slots, slotRecords, if_pos hw, if_neg (by rw [hnot]; decide)]
    exact congrArg (fun g => (State.slots s g s.loads s.alert).record (closedRecord s .policy none i))
      (Vector.set_set ..)
  · have hclose : closeWindow s i .policy none = s := if_neg hw
    rw [hclose, slotRecords, if_neg hw, List.nil_append]
    by_cases hf : isFrozen s i = true
    · rw [thawSlot, if_pos hf, if_pos hf, setGuard_eq_slots, record_guards, record_loads, record_alert, record_slots]
      exact congrArg (fun g => (State.slots s g s.loads s.alert).record
        { time := s.clock, kind := .thawed, slot := some i }) (Vector.set_set ..)
    · rw [thawSlot, if_neg hf, if_neg hf]
      rfl

/-- The guards after a list of slots is renewed. -/
def renewedGuards (used : Fin 16 → Bool) (s : State) (l : List (Fin 16)) : Vector (Option SlotGuard) 16 :=
  Vector.ofFn (fun i => if i ∈ l then (if used i then some {} else none) else s.guards[i])

theorem foldl_commitSlot (used : Fin 16 → Bool) {l : List (Fin 16)} (hl : l.Nodup) (s : State) :
    l.foldl (fun s i => commitSlot (used i) s i) s =
      addRecords (State.slots s (renewedGuards used s l) s.loads s.alert) (l.flatMap (slotRecords s)) := by
  induction l generalizing s with
  | nil =>
    have hguards : renewedGuards used s [] = s.guards := vector_ext fun i => ofFn_get _ i
    rw [hguards]
    rfl
  | cons i rest ih =>
    obtain ⟨hi, hrest⟩ := List.nodup_cons.mp hl
    have hget : ∀ j : Fin 16, (commitSlot (used i) s i).guards[j] =
        if i = j then (if used i then some freshGuard else none) else s.guards[j] := fun j => by
      rw [commitSlot_eq, addRecords_guards]
      exact Time.setGuard_get s i j _
    have hguards : renewedGuards used (commitSlot (used i) s i) rest = renewedGuards used s (i :: rest) :=
      vector_ext fun j => by
        rw [renewedGuards, renewedGuards, ofFn_get, ofFn_get, hget]
        by_cases hj : i = j
        · subst hj
          rw [if_neg hi, if_pos rfl, if_pos List.mem_cons_self]
          rfl
        · rw [if_neg hj]
          exact if_congr (by simp [Ne.symm hj]) rfl rfl
    have hrecords : rest.flatMap (slotRecords (commitSlot (used i) s i)) = rest.flatMap (slotRecords s) :=
      List.flatMap_congr fun j hj => slotRecords_congr (by rw [commitSlot_eq, addRecords_clock]; rfl)
        ((hget j).trans (if_neg fun (h : i = j) => hi (h ▸ hj)))
    rw [List.foldl_cons, ih hrest, hguards, hrecords, commitSlot_eq, addRecords_slots, addRecords_loads,
      addRecords_alert, List.flatMap_cons, addRecords_append]
    rfl

/-! ### The Download Records of the changed slots (R127) -/

/-- The controller of a Download Record is among the changed slots. -/
def loadChanged (changed : List (Fin 16)) (s : State) (d : Fin 4) : Bool :=
  (s.loads[d].filter (fun x => decide (x.controller ∈ changed))).isSome

/-- The Download Record slots without the records of the changed slots. -/
def loadsKept (changed : List (Fin 16)) (s : State) : Vector (Option Download) 4 :=
  Vector.ofFn (fun d => s.loads[d].filter (fun x => decide (x.controller ∉ changed)))

/-- The aborts of the records of the changed slots. -/
def policyAborts (changed : List (Fin 16)) (s : State) (l : List (Fin 4)) : List EventRecord :=
  l.filterMap (fun d =>
    (s.loads[d].filter (fun x => decide (x.controller ∈ changed))).map (fun x => abortRecord s x .policy))

/-- One step of the Load Checker's part of a swap. -/
def abortChanged (changed : List (Fin 16)) (s : State) (d : Fin 4) : State :=
  match s.loads[d] with
  | some r => if changed.contains r.controller then abortLoad s d .policy else s
  | none => s

theorem abortChanged_eq (changed : List (Fin 16)) (s : State) (d : Fin 4) :
    abortChanged changed s d = if loadChanged changed s d = true then abortLoad s d .policy else s := by
  unfold abortChanged loadChanged
  cases hr : s.loads[d] with
  | none => rfl
  | some r =>
    by_cases hc : r.controller ∈ changed
    · simp [hc, Option.filter]
    · simp [hc, Option.filter]

theorem abortForPolicy_fold (changed : List (Fin 16)) {l : List (Fin 4)} (hl : l.Nodup) (s : State) :
    l.foldl (abortChanged changed) s =
      (l.filter (loadChanged changed s)).foldl (fun s d => abortLoad s d .policy) s := by
  induction l generalizing s with
  | nil => rfl
  | cons d rest ih =>
    obtain ⟨hd, hrest⟩ := List.nodup_cons.mp hl
    rw [List.foldl_cons, abortChanged_eq]
    by_cases hc : loadChanged changed s d = true
    · have hloads : ∀ e ∈ rest, (abortLoad s d .policy).loads[e] = s.loads[e] := fun e he => by
        cases hr : s.loads[d] with
        | none => rw [abortLoad_of_none hr]
        | some r =>
          rw [abortLoad_of_some hr, record_loads]
          exact (Invariants.setLoad_get s d e none).trans (if_neg fun (h : d = e) => hd (h ▸ he))
      have hsame : rest.filter (loadChanged changed (abortLoad s d .policy)) = rest.filter (loadChanged changed s) :=
        List.filter_congr fun e he => by rw [loadChanged, hloads e he, loadChanged]
      rw [if_pos hc, ih hrest, hsame, List.filter_cons_of_pos hc, List.foldl_cons]
    · rw [if_neg hc, ih hrest, List.filter_cons_of_neg hc]

/-- The Download Records of the changed slots aborted with reason POLICY (R127). -/
theorem abortForPolicy_eq (changed : List (Fin 16)) (s : State) :
    abortForPolicy s changed =
      addRecords (State.slots s s.guards (loadsKept changed s) s.alert)
        (policyAborts changed s (List.finRange 4)) := by
  have hfold : abortForPolicy s changed = (List.finRange 4).foldl (abortChanged changed) s := rfl
  have hloads : (Vector.ofFn (fun d => if d ∈ (List.finRange 4).filter (loadChanged changed s) then none else s.loads[d])) =
      loadsKept changed s := vector_ext fun d => by
    have hmem : d ∈ (List.finRange 4).filter (loadChanged changed s) ↔ loadChanged changed s d = true := by
      rw [List.mem_filter]
      exact and_iff_right (List.mem_finRange d)
    rw [loadsKept, ofFn_get, ofFn_get, if_congr hmem rfl rfl, loadChanged]
    cases hr : s.loads[d] with
    | none => exact ite_self none
    | some r => by_cases hc : r.controller ∈ changed <;> simp [hc, Option.filter]
  have hrecords : ((List.finRange 4).filter (loadChanged changed s)).filterMap
      (fun d => s.loads[d].map (fun r => abortRecord s r .policy)) = policyAborts changed s (List.finRange 4) := by
    rw [List.filterMap_filter, policyAborts]
    refine congrArg (fun f => (List.finRange 4).filterMap f) (funext fun d => ?_)
    rw [loadChanged]
    cases hr : s.loads[d] with
    | none => rfl
    | some r => by_cases hc : r.controller ∈ changed <;> simp [hc, Option.filter]
  rw [hfold, abortForPolicy_fold changed (List.nodup_finRange 4), foldl_abortLoad .policy
    ((List.nodup_finRange 4).filter _), hloads, hrecords]

/-! ### The swap (R140, R142) -/

/-- What a record leaves alone, changed before it or after. -/
def State.swapped (s : State) (active : BankId) (o : List Outstanding) (w : List ShadowEntry)
    (d : Vector DecisionCounters 16) : State :=
  { s with active := active, outstanding := o, shadow := w, decisions := d }

theorem addRecords_swapped (s : State) (l : List EventRecord) (active : BankId) (o : List Outstanding)
    (w : List ShadowEntry) (d : Vector DecisionCounters 16) :
    State.swapped (addRecords s l) active o w d = addRecords (State.swapped s active o w d) l := by
  induction l generalizing s with
  | nil => rfl
  | cons e rest ih =>
    have hrecord : State.swapped (s.record e) active o w d = (State.swapped s active o w d).record e := by
      unfold State.record State.swapped
      split <;> rfl
    rw [addRecords_cons, ih, hrecord, addRecords_cons]

theorem clearDecisions_eq (s : State) (changed : List (Fin 16)) :
    clearDecisions s changed =
      { s with decisions := Vector.ofFn (fun i => if i ∈ changed then {} else s.decisions[i]) } := by
  have hfold : ∀ (l : List (Fin 16)) (v : Vector DecisionCounters 16) (j : Fin 16),
      (l.foldl (fun (v : Vector DecisionCounters 16) (i : Fin 16) => v.set i {}) v)[j] = if j ∈ l then {} else v[j] := by
    intro l
    induction l with
    | nil => exact fun v j => rfl
    | cons i rest ih =>
      intro v j
      rw [List.foldl_cons, ih]
      by_cases hj : j ∈ rest
      · rw [if_pos hj, if_pos (List.mem_cons_of_mem i hj)]
      · rw [if_neg hj]
        by_cases hij : i = j
        · subst hij
          simp
        · simp [hj, Ne.symm hij, Vector.getElem_set_ne _ _ (fun h => hij (Fin.ext h))]
  have hdecisions : changed.foldl (fun (v : Vector DecisionCounters 16) (i : Fin 16) => v.set i {}) s.decisions =
      Vector.ofFn (fun i => if i ∈ changed then {} else s.decisions[i]) :=
    vector_ext fun j => by rw [hfold, ofFn_get]
  rw [clearDecisions, hdecisions]

/-- The records of a swap in their order (R142). -/
def swapRecords (s : State) (changed : List (Fin 16)) (source : MacAddress) : List EventRecord :=
  changed.flatMap (slotRecords s) ++ policyAborts changed s (List.finRange 4) ++
    [{ time := s.clock, kind := .committed, source := some source, extra := some (bankCode (otherBank s.active)) }]

theorem anyFrozen_renewed {v : State} {used : Fin 16 → Bool} {l : List (Fin 16)}
    (h : v.guards = renewedGuards used s l) :
    anyFrozen v = (List.finRange 16).any (fun i => decide (i ∉ l) && isFrozen s i) := by
  refine congrArg (fun p => (List.finRange 16).any p) (funext fun i => ?_)
  have hget : v.guards[i] = if i ∈ l then (if used i then some {} else none) else s.guards[i] := by
    rw [h]
    exact ofFn_get _ i
  by_cases hi : i ∈ l
  · rw [if_pos hi] at hget
    rw [isFrozen, guardOf, hget, decide_eq_false (not_not.mpr hi), Bool.false_and]
    cases used i <;> rfl
  · rw [if_neg hi] at hget
    rw [isFrozen_congr hget, decide_eq_true hi, Bool.true_and]

/-- What a swap does after the Window Unit and the Load Checker. -/
def finishSwap (changed : List (Fin 16)) (source : MacAddress) (s : State) : State :=
  let v := clearDecisions (trackerPolicy s changed) changed
  v.record { time := v.clock, kind := .committed, source := some source, extra := some (bankCode v.active) }

theorem setAlert_foldl_commitSlot (used : Fin 16 → Bool) {l : List (Fin 16)} (hl : l.Nodup) (s : State) :
    setAlert (l.foldl (fun v i => commitSlot (used i) v i) s) =
      addRecords
        (State.slots s (renewedGuards used s l) s.loads
          ((List.finRange 16).any (fun i => decide (i ∉ l) && isFrozen s i)))
        (l.flatMap (slotRecords s)) := by
  have hguards : (addRecords (State.slots s (renewedGuards used s l) s.loads s.alert)
      (l.flatMap (slotRecords s))).guards = renewedGuards used s l := addRecords_guards _ _
  rw [foldl_commitSlot used hl, setAlert_eq, addRecords_slots, anyFrozen_renewed hguards, hguards, addRecords_loads]
  rfl

theorem abortForPolicy_addRecords (changed : List (Fin 16)) (s : State) (l : List EventRecord) :
    abortForPolicy (addRecords s l) changed =
      addRecords (State.slots s s.guards (loadsKept changed s) s.alert)
        (l ++ policyAborts changed s (List.finRange 4)) := by
  have hkept : loadsKept changed (addRecords s l) = loadsKept changed s := by
    rw [loadsKept, addRecords_loads, loadsKept]
  have haborts : policyAborts changed (addRecords s l) = policyAborts changed s := by
    obtain ⟨v, o, h⟩ := addRecords_frame s l
    rw [h]
    rfl
  rw [abortForPolicy_eq, addRecords_slots, ← addRecords_append, addRecords_guards, addRecords_alert, hkept, haborts]

theorem finishSwap_addRecords (changed : List (Fin 16)) (source : MacAddress) (s : State) (l : List EventRecord) :
    finishSwap changed source (addRecords s l) =
      addRecords
        (State.swapped s s.active (s.outstanding.filter (fun e => decide (e.slot ∉ changed)))
          (s.shadow.filter (fun e => decide (e.slot ∉ changed)))
          (Vector.ofFn (fun i => if i ∈ changed then {} else s.decisions[i])))
        (l ++
          [{ time := s.clock, kind := .committed, source := some source, extra := some (bankCode s.active) }]) := by
  have hmem : ∀ i : Fin 16, (!changed.contains i) = decide (i ∉ changed) := fun i => by simp
  have hlocal : clearDecisions (trackerPolicy (addRecords s l) changed) changed =
      State.swapped (addRecords s l) s.active (s.outstanding.filter (fun e => decide (e.slot ∉ changed)))
        (s.shadow.filter (fun e => decide (e.slot ∉ changed)))
        (Vector.ofFn (fun i => if i ∈ changed then {} else s.decisions[i])) := by
    obtain ⟨v, o, h⟩ := addRecords_frame s l
    rw [clearDecisions_eq, trackerPolicy, h]
    simp only [hmem]
    rfl
  have hclock : ∀ v : State, (addRecords v l).clock = v.clock := fun v => addRecords_clock v l
  have hactive : ∀ v : State, (addRecords v l).active = v.active := fun v => by
    obtain ⟨x, o, h⟩ := addRecords_frame v l
    rw [h]
  rw [finishSwap, hlocal, addRecords_swapped, hclock, hactive, addRecords_append]
  rfl

theorem loadsKept_slots (changed : List (Fin 16)) (v : State) (g : Vector (Option SlotGuard) 16) (alert : Bool) :
    loadsKept changed (State.slots v g s.loads alert) = loadsKept changed s := rfl

theorem policyAborts_slots (changed : List (Fin 16)) {v : State} (hclock : v.clock = s.clock)
    (g : Vector (Option SlotGuard) 16) (alert : Bool) :
    policyAborts changed (State.slots v g s.loads alert) = policyAborts changed s := by
  unfold policyAborts abortRecord State.slots
  dsimp only
  rw [hclock]

theorem swapBanks_phases (s : State) (source : MacAddress) :
    swapBanks s source =
      finishSwap (changedSlots s.activeBank s.inactiveBank) source (abortForPolicy (setAlert
        ((changedSlots s.activeBank s.inactiveBank).foldl
          (fun v i => commitSlot (slotUsed s.inactiveBank i) v i) { s with active := otherBank s.active }))
        (changedSlots s.activeBank s.inactiveBank)) := by
  have hbank : State.activeBank { s with active := otherBank s.active } = s.inactiveBank := rfl
  unfold swapBanks finishSwap
  dsimp only
  rw [hbank]

theorem swapBanks_eq (s : State) (source : MacAddress) :
    swapBanks s source =
      (let changed := changedSlots s.activeBank s.inactiveBank
      addRecords
        { s with
          active := otherBank s.active
          guards := renewedGuards (slotUsed s.inactiveBank) s changed
          alert := (List.finRange 16).any (fun i => decide (i ∉ changed) && isFrozen s i)
          loads := loadsKept changed s
          outstanding := s.outstanding.filter (fun e => decide (e.slot ∉ changed))
          shadow := s.shadow.filter (fun e => decide (e.slot ∉ changed))
          decisions := Vector.ofFn (fun i => if i ∈ changed then {} else s.decisions[i]) }
        (swapRecords s changed source)) := by
  have hnodup : (changedSlots s.activeBank s.inactiveBank).Nodup := (List.nodup_finRange 16).filter _
  rw [swapBanks_phases]
  dsimp only
  generalize changedSlots s.activeBank s.inactiveBank = changed at hnodup
  have hguards : renewedGuards (slotUsed s.inactiveBank) { s with active := otherBank s.active } changed =
      renewedGuards (slotUsed s.inactiveBank) s changed := rfl
  have hslots : slotRecords { s with active := otherBank s.active } = slotRecords s := rfl
  have hfrozen : isFrozen { s with active := otherBank s.active } = isFrozen s := rfl
  rw [setAlert_foldl_commitSlot _ hnodup, hguards, hslots, hfrozen, abortForPolicy_addRecords,
    loadsKept_slots (s := s), policyAborts_slots (s := s) changed (by rfl), finishSwap_addRecords, swapRecords]
  refine congrArg₂ addRecords ?_ ?_
  · dsimp only [State.swapped, State.slots]
  · dsimp only [State.slots]

/-! ### The request (R135, R143) -/

theorem doCommit_eq (h : r.payloadLength = 0) (s : State) :
    doCommit r s =
      if s.lock then refuse s .policyLocked
      else
        match firstFailure s.station s.inactiveBank with
        | some (t, i) => { state := s, status := .inconsistent, payload := [tableCode t, 0] ++ beBytes 2 i }
        | none => reply (swapBanks s r.source) [BitVec.ofNat 8 (bankCode (otherBank s.active))] := by
  rw [doCommit, withLength_of_eq (n := 0) (by rw [h]; rfl)] <;> rfl

theorem mem_changedSlots {old new : Bank} {i : Fin 16} :
    i ∈ changedSlots old new ↔
      isUsed old.controllers[i].used ≠ isUsed new.controllers[i].used ∨
        (isUsed old.controllers[i].used = true ∧ isUsed new.controllers[i].used = true ∧
          (old.controllers[i].address ≠ new.controllers[i].address ∨
            old.controllers[i].profile ≠ new.controllers[i].profile)) := by
  have hmem : i ∈ changedSlots old new ↔ slotChanged old new i = true := by
    rw [changedSlots, List.mem_filter]
    exact and_iff_right (List.mem_finRange i)
  rw [hmem, slotChanged, slotUsed, slotUsed, Bool.or_eq_true, bne_iff_ne, Bool.and_eq_true, Bool.or_eq_true, bne_iff_ne,
    bne_iff_ne]
  constructor
  · rintro (h | ⟨hold, hdiffer⟩)
    · exact .inl h
    · by_cases hnew : isUsed new.controllers[i].used = true
      · exact .inr ⟨hold, hnew, hdiffer⟩
      · exact .inl (by rw [hold]; exact fun h => hnew h.symm)
  · rintro (h | ⟨hold, -, hdiffer⟩)
    · exact .inl h
    · exact .inr ⟨hold, hdiffer⟩

theorem commitCode (id : BankId) : BitVec.ofNat 8 (bankCode (otherBank id)) = if id = .a then 1 else 0 := by
  cases id <;> rfl

theorem bankCode_otherBank (id : BankId) : bankCode (otherBank id) = if id = .a then 1 else 0 := by cases id <;> rfl

/-- The swap of a state that has counted a request, in the fields of the state before. -/
theorem swapState_received (r : Request) (u : State) :
    (let changed := changedSlots (received r u).activeBank (received r u).inactiveBank
    addRecords
      { received r u with
        active := otherBank (received r u).active
        guards := renewedGuards (slotUsed (received r u).inactiveBank) (received r u) changed
        alert := (List.finRange 16).any (fun i => decide (i ∉ changed) && isFrozen (received r u) i)
        loads := loadsKept changed (received r u)
        outstanding := (received r u).outstanding.filter (fun e => decide (e.slot ∉ changed))
        shadow := (received r u).shadow.filter (fun e => decide (e.slot ∉ changed))
        decisions := Vector.ofFn (fun i => if i ∈ changed then {} else (received r u).decisions[i]) }
      (swapRecords (received r u) changed r.source)) =
    (let changed := changedSlots u.activeBank u.inactiveBank
    addRecords
      { received r u with
        active := otherBank u.active
        guards := renewedGuards (slotUsed u.inactiveBank) u changed
        alert := (List.finRange 16).any (fun i => decide (i ∉ changed) && isFrozen u i)
        loads := loadsKept changed u
        outstanding := u.outstanding.filter (fun e => decide (e.slot ∉ changed))
        shadow := u.shadow.filter (fun e => decide (e.slot ∉ changed))
        decisions := Vector.ofFn (fun i => if i ∈ changed then {} else u.decisions[i]) }
      (changed.flatMap (slotRecords u) ++ policyAborts changed u (List.finRange 4) ++
        [{ time := u.clock, kind := .committed, source := some r.source,
           extra := some (if u.active = .a then 1 else 0) }])) := by
  obtain ⟨x, y, hr⟩ := received_frame r u
  have hactiveBank : (received r u).activeBank = u.activeBank := by rw [hr]; rfl
  have hinactive : (received r u).inactiveBank = u.inactiveBank := by rw [hr]; rfl
  have hactive : (received r u).active = u.active := by rw [hr]
  have hslots : slotRecords (received r u) = slotRecords u := by rw [hr]; rfl
  have hfrozen : isFrozen (received r u) = isFrozen u := by rw [hr]; rfl
  have hguards : ∀ used l, renewedGuards used (received r u) l = renewedGuards used u l := by rw [hr]; exact fun _ _ => rfl
  have hloads : ∀ l, loadsKept l (received r u) = loadsKept l u := by rw [hr]; exact fun _ => rfl
  have haborts : ∀ l, policyAborts l (received r u) = policyAborts l u := by rw [hr]; exact fun _ => rfl
  have houtstanding : (received r u).outstanding = u.outstanding := by rw [hr]
  have hshadow : (received r u).shadow = u.shadow := by rw [hr]
  have hdecisions : (received r u).decisions = u.decisions := by rw [hr]
  have hclock : (received r u).clock = u.clock := by rw [hr]
  dsimp only [swapRecords]
  rw [hactiveBank, hinactive, hslots, hfrozen, hguards, hloads, haborts, houtstanding, hshadow, hdecisions, hactive,
    hclock, bankCode_otherBank]

/-- Settles O42. -/
theorem commitSwapsAPassingBank : Obligations.CommitSwapsAPassingBank := by
  refine ⟨fun old new i => mem_changedSlots, fun dt r s haccepted h => ?_⟩
  have hexec : exec (.commit dt r) s = .next (arriveRequest 0x07 doCommit r (s.elapse dt)) := rfl
  rw [hexec]
  generalize s.elapse dt = u at haccepted ⊢
  obtain ⟨x, y, hr⟩ := received_frame r u
  have hlockOf : (received r u).lock = u.lock := by rw [hr]
  have hinactive : (received r u).inactiveBank = u.inactiveBank := by rw [hr]; rfl
  have hstation : (received r u).station = u.station := by rw [hr]
  have hfails : ∀ t k, u.lock = false → firstFailure u.station u.inactiveBank = some (t, k) →
      arriveRequest 0x07 doCommit r u =
        answered 0x07 r u (received r u) .inconsistent ([tableCode t, 0] ++ beBytes 2 k) := by
    intro t k hlock hfirst
    have hrun := (doCommit_eq h (received r u)).trans (if_neg (by rw [hlockOf, hlock]; decide))
    rw [hstation, hinactive, hfirst] at hrun
    exact arriveRequest_of_accepted haccepted hrun
  refine ⟨fun hlock => ?_, fun t k hlock hfirst => congrArg _ (hfails t k hlock hfirst),
    fun t k hlock hfirst => congrArg _ (hfails t k hlock (firstFailure_eq_some.mpr hfirst)),
    fun hlock hnot => ?_, fun hlock hpass => ?_⟩
  · have hrun := (doCommit_eq h (received r u)).trans (if_pos (hlockOf.trans hlock))
    exact congrArg _ (arriveRequest_of_accepted haccepted hrun)
  · obtain ⟨⟨t, k⟩, hfirst⟩ := Option.ne_none_iff_exists'.mp (mt firstFailure_eq_none_iff.mp hnot)
    exact ⟨t, k, congrArg _ (hfails t k hlock hfirst)⟩
  · have hnone : firstFailure u.station u.inactiveBank = none := hpass.elim id firstFailure_eq_none_iff.mpr
    have hrun := (doCommit_eq h (received r u)).trans (if_neg (by rw [hlockOf, hlock]; decide))
    rw [hstation, hinactive, hnone] at hrun
    have hrun := hrun.trans (congrArg₂ reply (swapBanks_eq (received r u) r.source) rfl)
    have hcodes : [BitVec.ofNat 8 (bankCode (otherBank (received r u).active))] = [if u.active = .a then 1 else 0] := by
      rw [commitCode, hr]
    rw [hcodes] at hrun
    rw [arriveRequest_of_accepted haccepted hrun, swapState_received]
    rfl

end Sys2Proof.Proofs.Commits
end

section
/-! Upstream frames: the response matched, the Shadow Store, and the placement in NET (O27). -/

namespace Sys2Proof.Proofs.Upstream

open Sys2Proof Sys2Proof.Machine Sys2Proof.Claims Sys2Proof.Laws Sys2Proof.Proofs Sys2Proof.Proofs.ResetAndSave
open Sys2Proof.Proofs.Arrivals Sys2Proof.Proofs.Scores

variable {s u w : State}

/-! ### The Shadow Store (R86 to R89) -/

/-- The key of a Shadow Store entry. -/
def shadowKey (x : ShadowEntry) : Fin 16 × BitVec 32 := (x.slot, x.object)

theorem shadowKey_beq {x : ShadowEntry} {slot : Fin 16} {object : BitVec 32} :
    (x.slot == slot && x.object == object) = decide (shadowKey x = (slot, object)) := by
  rw [Bool.eq_iff_iff, Bool.and_eq_true, beq_iff_eq, beq_iff_eq, decide_eq_true_iff, shadowKey, Prod.mk.injEq]

theorem withoutKey_eq (l : List ShadowEntry) (slot : Fin 16) (object : BitVec 32) :
    withoutKey l slot object = l.filter (fun x => decide (shadowKey x ≠ (slot, object))) := by
  unfold withoutKey
  refine List.filter_congr fun x _ => ?_
  rw [shadowKey_beq, decide_not]

theorem withoutKey_middle {before after : List ShadowEntry} {x : ShadowEntry}
    (hnodup : ((before ++ x :: after).map shadowKey).Nodup) :
    withoutKey (before ++ x :: after) x.slot x.object = before ++ after := by
  rw [List.map_append, List.map_cons, List.nodup_append] at hnodup
  obtain ⟨-, hafter, hdisjoint⟩ := hnodup
  have hbefore : before.filter (fun y => decide (shadowKey y ≠ (x.slot, x.object))) = before :=
    List.filter_eq_self.mpr fun y hy => decide_eq_true fun h =>
      hdisjoint _ (List.mem_map_of_mem hy) _ List.mem_cons_self h
  have hrest : after.filter (fun y => decide (shadowKey y ≠ (x.slot, x.object))) = after :=
    List.filter_eq_self.mpr fun y hy => decide_eq_true fun (h : shadowKey y = shadowKey x) =>
      (List.nodup_cons.mp hafter).1 (h ▸ List.mem_map_of_mem hy)
  rw [withoutKey_eq, List.filter_append, List.filter_cons_of_neg (by simp [shadowKey]), hbefore, hrest]

/-- A value of a key that is held: the entry moves to the most recent end (R87, R88). -/
theorem shadowInsert_of_held {before after : List ShadowEntry} {x e : ShadowEntry}
    (hnodup : ((before ++ x :: after).map shadowKey).Nodup) (hkey : shadowKey x = shadowKey e) :
    shadowInsert (before ++ x :: after) e = before ++ after ++ [e] := by
  obtain ⟨hslot, hobject⟩ := Prod.mk.inj hkey
  rw [shadowInsert, ← hslot, ← hobject, withoutKey_middle hnodup]
  refine congrArg (· ++ [e]) (if_neg fun h => ?_)
  have := h.1
  simp only [List.length_append, List.length_cons] at this
  omega

theorem withoutKey_of_new {l : List ShadowEntry} {e : ShadowEntry} (h : ∀ x ∈ l, shadowKey x ≠ shadowKey e) :
    withoutKey l e.slot e.object = l := by
  rw [withoutKey_eq]
  exact List.filter_eq_self.mpr fun x hx => decide_eq_true (h x hx)

/-- A new key, with room for it. -/
theorem shadowInsert_of_new {l : List ShadowEntry} {e : ShadowEntry} (h : ∀ x ∈ l, shadowKey x ≠ shadowKey e)
    (hroom : l.length < 512) : shadowInsert l e = l ++ [e] := by
  rw [shadowInsert, withoutKey_of_new h]
  exact congrArg (· ++ [e]) (if_neg fun hfull => absurd hfull.2 (Nat.not_le.mpr hroom))

/-- A new key in a full store evicts the oldest entry (R89). -/
theorem shadowInsert_of_full {oldest : ShadowEntry} {rest : List ShadowEntry} {e : ShadowEntry}
    (h : ∀ x ∈ oldest :: rest, shadowKey x ≠ shadowKey e) (hfull : (oldest :: rest).length = 512) :
    shadowInsert (oldest :: rest) e = rest ++ [e] := by
  rw [shadowInsert, withoutKey_of_new h]
  exact congrArg (· ++ [e]) (if_pos ⟨rfl, hfull.ge⟩)

/-- What a key's reference is in a list of entries (R60). -/
def lookup (l : List ShadowEntry) (key : Fin 16 × BitVec 32) : Option Int :=
  (l.find? (fun x => decide (shadowKey x = key))).map (·.value)

theorem reference_eq (s : State) (slot : Fin 16) (object : BitVec 32) :
    reference s slot object = lookup s.shadow (slot, object) := by
  unfold reference lookup
  simp only [shadowKey_beq]

theorem lookup_append_other {l : List ShadowEntry} {e : ShadowEntry} {key : Fin 16 × BitVec 32}
    (h : key ≠ shadowKey e) : lookup (l ++ [e]) key = lookup l key := by
  have hlast : [e].find? (fun x => decide (shadowKey x = key)) = none :=
    List.find?_eq_none.mpr fun x hx => by
      rw [List.mem_singleton.mp hx, decide_eq_false (Ne.symm h)]
      exact Bool.false_ne_true
  rw [lookup, List.find?_append, hlast, Option.or_none, lookup]

theorem lookup_withoutKey {l : List ShadowEntry} {slot : Fin 16} {object : BitVec 32} {key : Fin 16 × BitVec 32}
    (h : key ≠ (slot, object)) : lookup (withoutKey l slot object) key = lookup l key := by
  rw [lookup, withoutKey_eq, List.find?_filter, lookup]
  refine congrArg (fun p => (l.find? p).map (·.value)) (funext fun x => ?_)
  by_cases hx : shadowKey x = key
  · simp [hx, h]
  · simp [hx]

theorem lookup_cons_other {l : List ShadowEntry} {x : ShadowEntry} {key : Fin 16 × BitVec 32} (h : shadowKey x ≠ key) :
    lookup (x :: l) key = lookup l key := by
  rw [lookup, List.find?_cons_of_neg (by simpa using h), lookup]

/-- Every other key keeps its reference, but the one evicted (R87 to R89). -/
theorem lookup_shadowInsert {l : List ShadowEntry} {e : ShadowEntry} {key : Fin 16 × BitVec 32}
    (hlength : l.length ≤ 512) (hnodup : (l.map shadowKey).Nodup) (hkey : key ≠ shadowKey e) :
    lookup (shadowInsert l e) key = lookup l key ∨
      (lookup (shadowInsert l e) key = none ∧ l.length = 512 ∧ (∀ x ∈ l, shadowKey x ≠ shadowKey e) ∧
        ∃ oldest rest, l = oldest :: rest ∧ shadowKey oldest = key) := by
  rw [shadowInsert, lookup_append_other hkey]
  split
  · next hfull =>
    obtain ⟨hsame, hcapacity⟩ := hfull
    have hfull : l.length = 512 := Nat.le_antisymm hlength hcapacity
    have hnew : ∀ x ∈ l, shadowKey x ≠ shadowKey e := fun x hx h => by
      have hall := List.length_filter_eq_length_iff.mp hsame x hx
      rw [shadowKey_beq, decide_eq_true (show shadowKey x = (e.slot, e.object) from h)] at hall
      exact absurd hall (by decide)
    rw [withoutKey_of_new hnew]
    cases l with
    | nil => cases hfull
    | cons oldest rest =>
      by_cases ho : shadowKey oldest = key
      · refine .inr ⟨?_, hfull, hnew, oldest, rest, rfl, ho⟩
        rw [lookup, List.drop_one, List.tail_cons, List.find?_eq_none.mpr fun x hx => ?_, Option.map_none]
        rw [decide_eq_true_iff, ← ho]
        exact fun h => (List.nodup_cons.mp hnodup).1 (h ▸ List.mem_map_of_mem hx)
      · exact .inl (lookup_cons_other ho).symm
  · exact .inl (lookup_withoutKey hkey)

/-! ### The CELL Port Unit takes no part in a match -/

/-- The CELL Port Unit replaced. -/
def withCell (s : State) (c : PortState) : State := { s with cell := c }

theorem record_withCell (s : State) (c : PortState) (e : EventRecord) :
    (withCell s c).record e = withCell (s.record e) c := by
  unfold State.record withCell
  split <;> rfl

theorem abortLoad_withCell (s : State) (c : PortState) (d : Fin 4) (reason : Reason) :
    abortLoad (withCell s c) d reason = withCell (abortLoad s d reason) c := by
  have hloads : (withCell s c).loads = s.loads := rfl
  unfold abortLoad
  rw [hloads]
  cases s.loads[d] with
  | none => rfl
  | some r => exact record_withCell (s.setLoad d none) c _

theorem applyReport_withCell (s : State) (c : PortState) (slot : Fin 16) (d : Fin 4) (kind : EntryKind) (positive : Bool) :
    applyReport (withCell s c) slot d kind positive = withCell (applyReport s slot d kind positive) c := by
  have hloads : (withCell s c).loads = s.loads := rfl
  unfold applyReport
  rw [hloads]
  cases s.loads[d] with
  | none => rfl
  | some r =>
    by_cases hslot : r.controller ≠ slot
    · simp only [if_pos hslot]
    · simp only [if_neg hslot]
      cases kind <;> cases r.state
      case begin.loading =>
        cases positive
        · exact abortLoad_withCell s c d _
        · rfl
      case segment.loading =>
        cases positive
        · simp only [Bool.false_eq_true, ↓reduceIte]
          generalize (⟨r.retryAllowance.val - 1, _⟩ : Fin 4) = left
          by_cases hleft : left = 0
          · simp only [if_pos hleft]
            exact abortLoad_withCell (s.setLoad d _) c d _
          · simp only [if_neg hleft]
            rfl
        · rfl
      case activate.activating => exact record_withCell (s.setLoad d none) c _
      all_goals rfl

theorem negativeEffect_withCell (s : State) (c : PortState) (e : Outstanding) :
    negativeEffect (withCell s c) e = withCell (negativeEffect s e) c := by
  have hrecord := record_withCell s c (entryRecord .responseNegative s.clock e)
  unfold negativeEffect
  cases e.kind <;> cases e.downloadSlot
  case begin.some d => exact applyReport_withCell s c e.slot d _ _
  case segment.some d => exact applyReport_withCell s c e.slot d _ _
  case activate.some d => exact applyReport_withCell s c e.slot d _ _
  all_goals exact hrecord

theorem positiveEffect_withCell (s : State) (c : PortState) (e : Outstanding) (value : ValueType → Option Int) :
    positiveEffect (withCell s c) e value = withCell (positiveEffect s e value) c := by
  have hnegative := negativeEffect_withCell s c e
  unfold positiveEffect
  cases e.kind
  case write => cases e.forwarded <;> cases e.object <;> rfl
  case read =>
    cases e.valueType with
    | none => exact hnegative
    | some t =>
      cases e.object with
      | none => exact hnegative
      | some o =>
        dsimp only
        cases value t with
        | none => exact hnegative
        | some v => rfl
  all_goals
    cases e.downloadSlot with
    | none => rfl
    | some d => exact applyReport_withCell s c e.slot d _ _

theorem matchResponse_withCell (s : State) (c : PortState) (slot : Fin 16) (p : Profile) (payload : List Byte) :
    matchResponse (withCell s c) slot p payload = withCell (matchResponse s slot p payload) c := by
  unfold matchResponse
  cases readTag p payload with
  | none => rfl
  | some tag =>
    have hfind : findEntry (withCell s c) slot tag = findEntry s slot tag := rfl
    have hremove : removeEntry (withCell s c) slot tag = withCell (removeEntry s slot tag) c := rfl
    dsimp only
    rw [hfind, hremove]
    cases findEntry s slot tag with
    | none => rfl
    | some e =>
      dsimp only
      split
      · exact positiveEffect_withCell _ c e _
      · exact negativeEffect_withCell _ c e

theorem handleResponse_withCell (s : State) (c : PortState) (l : Layers) :
    handleResponse l (withCell s c) = withCell (handleResponse l s) c := by
  have hbank : (withCell s c).activeBank = s.activeBank := rfl
  unfold handleResponse
  rw [hbank]
  cases classifyUpstream s.activeBank l with
  | response slot p => exact matchResponse_withCell s c slot p _
  | command => rfl
  | unguarded => rfl
  | broadcastCommand => rfl
  | transit => rfl

theorem noticeAfter_withCell (u w : State) (c : PortState) :
    noticeAfter (withCell u c) (withCell w c) = withCell (noticeAfter u w) c := by
  have hevents : (withCell u c).events = u.events ∧ (withCell w c).events = w.events ∧
      (withCell w c).settings = w.settings := ⟨rfl, rfl, rfl⟩
  unfold noticeAfter
  rw [hevents.1, hevents.2.1, hevents.2.2]
  split
  · next e rest n _ _ _ =>
    have hnet : (withCell w c).net = w.net ∧ noticeFrame (withCell w c) n e (withCell u c).overflow =
        noticeFrame w n e u.overflow := ⟨rfl, rfl⟩
    unfold offerNotice
    rw [hnet.1, hnet.2]
    split
    · rfl
    · split <;> rfl
  · rfl

/-- An upstream frame is matched, its NOTICE offered, and then it is placed (R5, R18; log entry 18). -/
theorem exec_frameArrival_cell {dt : Nat} {frame : List Byte} (h : ReachesTracker frame (s.elapse dt)) :
    exec (.frameArrival dt .cell frame) s =
      .next (upstreamPlaced
        (noticeAfter (s.elapse dt) (handleResponse (readLayers (withoutFcs frame)) (s.elapse dt))) frame) := by
  have hexec : exec (.frameArrival dt .cell frame) s = .next (arriveFrame (s.elapse dt) .cell frame) := rfl
  rw [hexec]
  generalize s.elapse dt = u at h ⊢
  obtain ⟨hup, hformat, hdestination, hroom⟩ := h
  set c := { u.cell with received := satAdd u.cell.received 1 } with hc
  have hcount : countReceived u .cell = withCell u c := rfl
  set l := readLayers (withoutFcs frame)
  have hcell : (noticeAfter u (handleResponse l u)).cell = u.cell := by
    have hself := handleResponse_withCell u u.cell l
    have hsame : withCell u u.cell = u := rfl
    rw [hsame] at hself
    rw [noticeAfter_cell, hself]
    rfl
  rw [arriveFrame_of_traffic (p := .cell) hup hformat hdestination, hcount, handleTraffic_cell (u := withCell u c) hroom, noticing,
    handleResponse_withCell, noticeAfter_withCell]
  generalize noticeAfter u (handleResponse l u) = w at hcell ⊢
  refine congrArg Host.Outcome.next ?_
  unfold placeUpstream upstreamPlaced
  rw [hcell, ← hc]
  have hnet : (withCell w c).net = w.net := rfl
  rw [hnet]
  split <;> rfl

/-! ### A response and its entry (R77 to R79, R87, R88, R122) -/

/-- A frame that no entry is held for changes nothing but its placement. -/
theorem handleResponse_of_none {l : Layers}
    (h : ∀ slot p, classifyUpstream u.activeBank l = .response slot p →
      ∀ tag, readTag p (protocolPayload p l).bytes = some tag → findEntry u slot tag = none) :
    handleResponse l u = u := by
  unfold handleResponse
  split
  · next slot p hkind =>
    unfold matchResponse
    split
    · rfl
    · next tag htag => rw [h slot p hkind tag htag]
  all_goals rfl

/-- A response with an entry: the entry removed, and the effect of its outcome. -/
theorem handleResponse_of_entry {l : Layers} {slot : Fin 16} {p : Profile} {tag : BitVec 32} {e : Outstanding}
    (hkind : classifyUpstream u.activeBank l = .response slot p)
    (htag : readTag p (protocolPayload p l).bytes = some tag) (hentry : findEntry u slot tag = some e) :
    handleResponse l u =
      if responsePositive p (protocolPayload p l).bytes then
        positiveEffect (removeEntry u slot tag) e (readValue p (protocolPayload p l).bytes p.responseValueOffset)
      else negativeEffect (removeEntry u slot tag) e := by
  rw [handleResponse, hkind]
  dsimp only
  rw [matchResponse, htag]
  dsimp only
  rw [hentry]

/-- A negative outcome that has no Download Record to report to is recorded (R79, R82). -/
theorem negativeEffect_record {e : Outstanding} (h : e.kind = .write ∨ e.kind = .read ∨ e.downloadSlot = none) :
    negativeEffect w e = w.record (entryRecord .responseNegative w.clock e) := by
  unfold negativeEffect
  rcases h with h | h | h <;> rw [h]
  cases e.kind <;> rfl

theorem negativeEffect_report {e : Outstanding} {d : Fin 4} (hwrite : e.kind ≠ .write) (hread : e.kind ≠ .read)
    (hd : e.downloadSlot = some d) : negativeEffect w e = reportFails w e.slot e.kind d := by
  rw [← applyReport_fails]
  unfold negativeEffect
  rw [hd]
  cases hk : e.kind
  case write => exact absurd hk hwrite
  case read => exact absurd hk hread
  all_goals rfl

theorem positiveEffect_report {e : Outstanding} {d : Fin 4} {value : ValueType → Option Int} (hwrite : e.kind ≠ .write)
    (hread : e.kind ≠ .read) (hd : e.downloadSlot = some d) :
    positiveEffect w e value = reportPasses w e.slot e.kind d := by
  rw [← applyReport_passes]
  unfold positiveEffect
  rw [hd]
  cases hk : e.kind
  case write => exact absurd hk hwrite
  case read => exact absurd hk hread
  all_goals rfl

theorem positiveEffect_none {e : Outstanding} {value : ValueType → Option Int} (hwrite : e.kind ≠ .write)
    (hread : e.kind ≠ .read) (hd : e.downloadSlot = none) : positiveEffect w e value = w := by
  unfold positiveEffect
  rw [hd]
  cases hk : e.kind
  case write => exact absurd hk hwrite
  case read => exact absurd hk hread
  all_goals rfl

theorem positiveEffect_write {e : Outstanding} {value : ValueType → Option Int} {v : Int} {o : BitVec 32}
    (hk : e.kind = .write) (hv : e.forwarded = some v) (ho : e.object = some o) :
    positiveEffect w e value = writeShadow w e.slot o v .confirmed := by
  rw [positiveEffect, hk]
  dsimp only
  rw [hv, ho]

theorem positiveEffect_write_none {e : Outstanding} {value : ValueType → Option Int} (hk : e.kind = .write)
    (hv : e.forwarded = none) : positiveEffect w e value = w := by
  rw [positiveEffect, hk]
  dsimp only
  rw [hv]

theorem positiveEffect_read {e : Outstanding} {value : ValueType → Option Int} {t : ValueType} {v : Int}
    {o : BitVec 32} (hk : e.kind = .read) (ht : e.valueType = some t) (ho : e.object = some o) (hv : value t = some v) :
    positiveEffect w e value = writeShadow w e.slot o v .learned := by
  rw [positiveEffect, hk]
  dsimp only
  rw [ht, ho]
  dsimp only
  rw [hv]

/-- A READ answer without its whole value has the effect of a negative one (R88). -/
theorem positiveEffect_read_none {e : Outstanding} {value : ValueType → Option Int} {t : ValueType} (hk : e.kind = .read)
    (ht : e.valueType = some t) (hv : value t = none) : positiveEffect w e value = negativeEffect w e := by
  rw [positiveEffect, hk]
  dsimp only
  rw [ht]
  cases e.object with
  | none => rfl
  | some o =>
    dsimp only
    rw [hv]

/-- Settles O27. -/
theorem responsesSettleTheirEntries : Obligations.ResponsesSettleTheirEntries := by
  refine ⟨fun s e hlength hnodup => ⟨fun before x after hs hkey => ?_, fun hnew => ⟨fun hroom => ?_,
    fun oldest rest hs hfull => ?_⟩, fun t ht => ⟨reference_shadowInsert ht, fun slot object hkey => ?_⟩⟩,
    fun dt frame s h hnone => ?_, ?_⟩
  · rw [hs] at hnodup ⊢
    exact shadowInsert_of_held hnodup hkey
  · exact shadowInsert_of_new hnew hroom
  · rw [hs] at hnew hfull ⊢
    exact shadowInsert_of_full hnew hfull
  · rw [reference_eq, reference_eq, ht]
    exact lookup_shadowInsert hlength hnodup hkey
  · rw [exec_frameArrival_cell h, handleResponse_of_none hnone, noticeAfter_self]
  · intro dt frame s slot p tag e settled h hkind htag hentry hsettled
    rw [exec_frameArrival_cell h, handleResponse_of_entry hkind htag hentry]
    have hremove : removeEntry (s.elapse dt) slot tag = settled := hsettled.symm
    rw [hremove]
    have hclock : settled.clock = (s.elapse dt).clock := by rw [hsettled]
    have hshadow : settled.shadow = (s.elapse dt).shadow := by rw [hsettled]
    have hevents : settled.events = (s.elapse dt).events := by rw [hsettled]
    generalize s.elapse dt = u at hclock hshadow hevents ⊢
    generalize (protocolPayload p (readLayers (withoutFcs frame))).bytes = payload
    refine ⟨fun v o hpos hk hv ho => ?_, fun hpos hk hv => ?_, fun vt v o hpos hk ht ho hv => ?_, fun hneg => ?_,
      fun hwrite hread => ⟨fun d hd => ?_, fun hd hpos => ?_⟩⟩
    · have hquiet : noticeAfter u (writeShadow settled e.slot o v .confirmed) = writeShadow settled e.slot o v .confirmed :=
        noticeAfter_of_sameEvents hevents
      rw [if_pos hpos, positiveEffect_write hk hv ho, hquiet, writeShadow, hshadow, hclock]
      exact ⟨_, rfl, reference_shadowInsert (e := ⟨e.slot, o, v, .confirmed, u.clock⟩) rfl, rfl⟩
    · rw [if_pos hpos, positiveEffect_write_none hk hv, noticeAfter_of_sameEvents hevents]
    · have hquiet : noticeAfter u (writeShadow settled e.slot o v .learned) = writeShadow settled e.slot o v .learned :=
        noticeAfter_of_sameEvents hevents
      rw [if_pos hpos, positiveEffect_read hk ht ho hv, hquiet, writeShadow, hshadow, hclock]
      exact ⟨_, rfl, reference_shadowInsert (e := ⟨e.slot, o, v, .learned, u.clock⟩) rfl, rfl⟩
    · have hrecord : (if responsePositive p payload = true then
          positiveEffect settled e (readValue p payload p.responseValueOffset) else negativeEffect settled e) =
          settled.record (entryRecord .responseNegative u.clock e) := by
        rw [← hclock]
        rcases hneg with ⟨hpos, hk⟩ | ⟨hk, vt, ht, hv⟩
        · rw [hpos]
          exact negativeEffect_record hk
        · rw [positiveEffect_read_none hk ht hv, ite_self, negativeEffect_record (.inr (.inl hk))]
      rw [hrecord]
      rfl
    · rw [positiveEffect_report hwrite hread hd, negativeEffect_report hwrite hread hd]
    · rw [if_pos hpos, positiveEffect_none hwrite hread hd, noticeAfter_of_sameEvents hevents]

end Sys2Proof.Proofs.Upstream
end

section
/-! Downstream frames in ENFORCE: what an ending and a placement leave, the steps of a decision, and the deciding rule
(O20). -/

namespace Sys2Proof.Proofs.Downstream

open Sys2Proof Sys2Proof.Machine Sys2Proof.Claims Sys2Proof.Laws Sys2Proof.Proofs Sys2Proof.Proofs.Changes
open Sys2Proof.Proofs.ResetAndSave Sys2Proof.Proofs.Arrivals Sys2Proof.Proofs.Expiries Sys2Proof.Proofs.Consistency

variable {s u w : State} {c : Command} {l : Layers} {frame : List Byte} {a : Action} {b : Bank}

/-! ### What a decision changes -/

/-- The fields that the decision of a downstream frame changes, its records apart. -/
def decided (s : State) (net cell : PortState) (decisions : Vector DecisionCounters 16)
    (outstanding : List Outstanding) (guards : Vector (Option SlotGuard) 16) (loads : Vector (Option Download) 4) :
    State :=
  { s with
    net := net
    cell := cell
    decisions := decisions
    outstanding := outstanding
    guards := guards
    loads := loads }

theorem record_decided (s : State) (e : EventRecord) (net cell : PortState) (decisions : Vector DecisionCounters 16)
    (outstanding : List Outstanding) (guards : Vector (Option SlotGuard) 16) (loads : Vector (Option Download) 4) :
    decided (s.record e) net cell decisions outstanding guards loads =
      (decided s net cell decisions outstanding guards loads).record e := by
  unfold State.record decided
  split <;> rfl

theorem countViolation_eq (s : State) (slot : Fin 16) :
    countViolation s slot = { s with guards := oneViolation s slot } := by
  have hguards : (countViolation s slot).guards = oneViolation s slot := by
    refine vector_ext fun i => ?_
    unfold oneViolation countViolation
    rw [ofFn_get]
    cases hg : s.guards[slot] with
    | none =>
      by_cases hi : i = slot
      · rw [if_pos hi, hi, hg]
        rfl
      · rw [if_neg hi]
    | some g =>
      dsimp only
      by_cases hfrozen : g.state = .frozen
      · rw [if_pos hfrozen]
        by_cases hi : i = slot
        · rw [if_pos hi, hi, hg, Option.map_some, if_pos (.inl hfrozen)]
        · rw [if_neg hi]
      · rw [if_neg hfrozen, Time.setGuard_get]
        by_cases hi : i = slot
        · rw [if_pos hi.symm, if_pos hi, hi, hg, Option.map_some]
          by_cases hfull : g.intervalCount = 255
          · rw [if_pos hfull, if_pos (.inr hfull), ← hfull]
          · rw [if_neg hfull, if_neg (not_or.mpr ⟨hfrozen, hfull⟩)]
        · rw [if_neg (Ne.symm hi), if_neg hi]
  obtain ⟨g, h⟩ := countViolation_frame s slot
  rw [h] at hguards ⊢
  exact congrArg (fun g => { s with guards := g }) hguards

/-- An ending applied: its record, its counter, and for some its violation and its Guard Drop (R51, R53, R54). -/
theorem applyEnding_eq (s : State) (slot : Fin 16) (source : MacAddress) (object : Option (BitVec 32)) (e : Ending) :
    applyEnding s slot source object e =
      (decided s
        (if isMalformed e = true then { s.net with guardDrops := satAdd s.net.guardDrops 1 } else s.net) s.cell
        (counted s slot (fun k => bumpDecision k (.ends e))) s.outstanding
        (if isViolation e = true then oneViolation s slot else s.guards) s.loads).record
        (endingRecord s.clock (some slot) source object e) := by
  unfold applyEnding
  generalize endingRecord s.clock (some slot) source object e = r
  rw [← record_decided]
  have hviolation : oneViolation s slot = oneViolation (s.record r) slot := by
    unfold oneViolation
    rw [record_guards]
  rw [hviolation]
  have hnet : s.net = (s.record r).net := (record_net s r).symm
  have hcell : s.cell = (s.record r).cell := (record_cell s r).symm
  have hdecisions : counted s slot = counted (s.record r) slot := by
    unfold counted
    rw [record_decisions]
  have houtstanding : s.outstanding = (s.record r).outstanding := (record_outstanding s r).symm
  have hguards : s.guards = (s.record r).guards := (record_guards s r).symm
  have hloads : s.loads = (s.record r).loads := (record_loads s r).symm
  rw [hnet, hcell, hdecisions, houtstanding, hguards, hloads]
  generalize s.record r = v
  dsimp only
  rw [countViolation_eq]
  cases isViolation e <;> cases isMalformed e <;> rfl

/-! ### Arrival -/

/-- A downstream frame that reaches its classification (R18), with the frame counted in Received. -/
theorem exec_frameArrival_net {dt : Nat} (h : ReachesRules frame (s.elapse dt)) :
    exec (.frameArrival dt .net frame) s =
      .next (noticeAfter (s.elapse dt)
        (handleDownstream (countReceived (s.elapse dt) .net) (readLayers (withoutFcs frame)) frame)) := by
  have hexec : exec (.frameArrival dt .net frame) s = .next (arriveFrame (s.elapse dt) .net frame) := rfl
  rw [hexec]
  generalize s.elapse dt = u at h ⊢
  obtain ⟨hup, hformat, hdestination, hroom, hcell⟩ := h
  have hcellUp : (countReceived u .net).cell.up = true := hcell
  rw [arriveFrame_of_traffic (p := .net) hup hformat hdestination, handleTraffic_net (u := countReceived u .net) hroom,
    hcellUp]
  rfl

/-- An ending other than VALUE_REFUSED leaves the frame dropped and counted in Denied. -/
theorem deniedFrame_eq {slot : Fin 16} {source : MacAddress} {object : Option (BitVec 32)} {e : Ending}
    (he : ∀ k, bumpDecision k (.ends e) = { k with denied := satAdd k.denied 1 }) :
    noticeAfter u (applyEnding (countReceived u .net) slot source object e) =
      deniedFrame u slot (isViolation e) (isMalformed e) (endingRecord u.clock (some slot) source object e) := by
  rw [applyEnding_eq, funext he]
  cases isViolation e <;> cases isMalformed e <;> rfl

/-! ### The command of a frame -/

/-- What a parsed command was read from (R28, R30). -/
theorem parseCommand_eq_command {slot : Fin 16} {i : Fin 8} {p : Profile} (h : parseCommand b slot i p l = .command c) :
    ∃ code, isFragmentFor p l = false ∧ readCode p (protocolPayload p l).bytes = some code ∧
      requiredComplete p (protocolPayload p l).bytes (classOfCode b i code) = true ∧
      c = { slot := slot, source := l.source, profileIndex := i, profile := p, controller := b.controllers[slot],
            cls := classOfCode b i code, code := code, tag := readTag p (protocolPayload p l).bytes,
            object :=
              (if hasObject (classOfCode b i code) then readObject p (protocolPayload p l).bytes else none).getD 0,
            payload := protocolPayload p l,
            segment :=
              if classOfCode b i code = .loadSegment ∧ hasSegments p then some (readSegment p (protocolPayload p l).bytes)
              else none } := by
  unfold parseCommand at h
  split at h
  · cases h
  · next hfragment =>
    dsimp only at h
    split at h
    · cases h
    · next code hcode =>
      split at h
      · cases h
      · next hrequired =>
        split at h
        · cases h
        · cases h
          exact ⟨code, by simpa using hfragment, hcode, by simpa using hrequired, rfl⟩

theorem commandOf_eq_some (h : commandOf b frame = some c) :
    ∃ slot i p, classifyDownstream b (readLayers (withoutFcs frame)) = .command slot i p ∧
      parseCommand b slot i p (readLayers (withoutFcs frame)) = .command c := by
  unfold commandOf at h
  split at h
  · next slot i p hkind =>
    split at h
    · next hparse =>
      cases h
      exact ⟨slot, i, p, hkind, hparse⟩
    · cases h
  all_goals cases h

theorem handleDownstream_of_command (h : commandOf s.activeBank frame = some c) :
    handleDownstream s (readLayers (withoutFcs frame)) frame =
      if s.mode = .enforce then enforceCommand s c (readLayers (withoutFcs frame)) frame
      else passiveCommand s c (readLayers (withoutFcs frame)) frame := by
  obtain ⟨slot, i, p, hkind, hparse⟩ := commandOf_eq_some h
  rw [handleDownstream, hkind]
  dsimp only
  rw [decideCommand, hparse]

/-- A COMMAND in ENFORCE that passes R28 is decided by steps 2 to 7 (R45). -/
theorem exec_command {dt : Nat} (henforce : (s.elapse dt).mode = .enforce) (h : ReachesRules frame (s.elapse dt))
    (hc : commandOf (s.elapse dt).activeBank frame = some c) :
    exec (.frameArrival dt .net frame) s =
      .next (noticeAfter (s.elapse dt)
        (enforceCommand (countReceived (s.elapse dt) .net) c (readLayers (withoutFcs frame)) frame)) := by
  have hmode : (countReceived (s.elapse dt) .net).mode = .enforce := henforce
  rw [exec_frameArrival_net h, handleDownstream_of_command (s := countReceived (s.elapse dt) .net) hc, if_pos hmode]

/-! ### The steps of a decision (R45) -/

theorem isFrozen_iff {slot : Fin 16} : isFrozen s slot = true ↔ guardOf s slot = some .frozen := by
  rw [isFrozen, beq_iff_eq]

theorem enforceCommand_of_frozen (hc : c.cls ≠ .read) (hf : guardOf s c.slot = some .frozen) :
    enforceCommand s c l frame = applyEnding s c.slot c.source (eventObject c) (.denied .frozen none) :=
  if_pos ⟨isFrozen_iff.mpr hf, hc⟩

/-- A command that step 2 lets through. -/
abbrev Unfrozen (s : State) (c : Command) : Prop := c.cls = .read ∨ guardOf s c.slot ≠ some .frozen

theorem enforceCommand_of_unfrozen (hf : Unfrozen s c) :
    enforceCommand s c l frame =
      match (actionStep s c l (decidingRule s.activeBank c)).ending with
      | some e => applyEnding s c.slot c.source (eventObject c) e
      | none =>
        match loadStep s c with
        | some (.refusal kind reason freed extra) =>
          applyEnding (applyRefusal s freed) c.slot c.source none
            (.load kind reason (decidingRule s.activeBank c) extra)
        | some (.pass d change) =>
          enforceTrack s c frame (decidingRule s.activeBank c) (actionStep s c l (decidingRule s.activeBank c))
            (some (d, change))
        | none =>
          enforceTrack s c frame (decidingRule s.activeBank c) (actionStep s c l (decidingRule s.activeBank c)) none := by
  have hopen : ¬ (isFrozen s c.slot = true ∧ c.cls ≠ .read) := fun h =>
    hf.elim h.2 fun hf => hf (isFrozen_iff.mp h.1)
  exact if_neg hopen

/-- Step 4 ends the decision. -/
theorem enforceCommand_of_ending {e : Ending} (hf : Unfrozen s c)
    (h : (actionStep s c l (decidingRule s.activeBank c)).ending = some e) :
    enforceCommand s c l frame = applyEnding s c.slot c.source (eventObject c) e := by
  rw [enforceCommand_of_unfrozen hf, h]

/-- Steps 4 and 5 let the command through, without a verdict. -/
theorem enforceCommand_of_unchecked (hf : Unfrozen s c)
    (ha : actionStep s c l (decidingRule s.activeBank c) = a) (hnone : a.ending = none) (hload : loadStep s c = none) :
    enforceCommand s c l frame = enforceTrack s c frame (decidingRule s.activeBank c) a none := by
  rw [enforceCommand_of_unfrozen hf, ha, hnone]
  dsimp only
  rw [hload]

/-- The verdict passes. -/
theorem enforceCommand_of_pass {d : Fin 4} {change : LoadChange} (hf : Unfrozen s c)
    (ha : actionStep s c l (decidingRule s.activeBank c) = a) (hnone : a.ending = none)
    (hload : loadStep s c = some (.pass d change)) :
    enforceCommand s c l frame = enforceTrack s c frame (decidingRule s.activeBank c) a (some (d, change)) := by
  rw [enforceCommand_of_unfrozen hf, ha, hnone]
  dsimp only
  rw [hload]

/-- The verdict refuses. -/
theorem enforceCommand_of_refusal {kind : EventKind} {reason : Option Reason} {freed : Option (Fin 4)}
    {extra : Option Nat} (hf : Unfrozen s c)
    (ha : actionStep s c l (decidingRule s.activeBank c) = a) (hnone : a.ending = none)
    (hload : loadStep s c = some (.refusal kind reason freed extra)) :
    enforceCommand s c l frame =
      applyEnding (applyRefusal s freed) c.slot c.source none (.load kind reason (decidingRule s.activeBank c) extra) := by
  rw [enforceCommand_of_unfrozen hf, ha, hnone]
  dsimp only
  rw [hload]

/-! ### The deciding rule (R37 to R40) -/

/-- A chain walked: the first rule of its list that matches. -/
theorem walkChain_eq {cls : CommandClass} {object : BitVec 32} {groups : Byte} {n : Nat} {h : BitVec 16}
    {rules : List (Fin 256)} (hc : ChainFrom b h rules) (hn : rules.length ≤ n) :
    walkChain b cls object groups n h = rules.find? (fun k => ruleMatches b.rules[k] cls object groups) := by
  induction rules generalizing n h with
  | nil =>
    have hend : h = chainEnd := hc
    cases n with
    | zero => rfl
    | succ n => rw [walkChain, hend, ruleIndex_chainEnd]; rfl
  | cons i rest ih =>
    obtain ⟨hi, hused, hrest⟩ := hc
    cases n with
    | zero => cases hn
    | succ n =>
      rw [walkChain, hi]
      dsimp only
      rw [hused, ih hrest (Nat.le_of_succ_le_succ hn), List.find?_cons]
      cases ruleMatches b.rules[i] cls object groups <;> rfl

theorem sharesGroup_iff {x y : Byte} : (x &&& y != 0) = true ↔ ∃ g, x.getLsbD g = true ∧ y.getLsbD g = true := by
  rw [bne_iff_ne, Ne, ← not_iff_not, not_not, BitVec.eq_of_getLsbD_eq_iff]
  simp only [not_exists, not_and]
  constructor
  · intro h g hx hy
    have hlt : g < 8 := BitVec.lt_of_getLsbD hx
    simpa [hx, hy] using h g hlt
  · intro h g _
    cases hx : x.getLsbD g <;> cases hy : y.getLsbD g <;> simp [hx, hy]
    exact absurd hy (h g hx)

theorem sourceGroups_iff {address : MacAddress} {g : Nat}
    (hinj : ∀ i j : Fin 32, isUsed b.sources[i].used = true → isUsed b.sources[j].used = true →
      b.sources[i].address = b.sources[j].address → i = j) :
    (sourceGroups b address).getLsbD g = true ↔
      ∃ j : Fin 32, isUsed b.sources[j].used = true ∧ b.sources[j].address = address ∧
        b.sources[j].groups.getLsbD g = true := by
  unfold sourceGroups
  split
  · next i hi =>
    have hfound := List.find?_some hi
    rw [Bool.and_eq_true, beq_iff_eq] at hfound
    constructor
    · exact fun h => ⟨i, hfound.1, hfound.2, h⟩
    · rintro ⟨j, hused, haddress, hg⟩
      rwa [hinj i j hfound.1 hused (hfound.2.trans haddress.symm)]
  · next hnone =>
    constructor
    · intro h
      simp at h
    · rintro ⟨j, hused, haddress, -⟩
      exact absurd (by rw [hused, haddress, beq_self_eq_true, Bool.and_true])
        (List.find?_eq_none.mp hnone j (List.mem_finRange j))

theorem ruleMatches_iff {k : Fin 256}
    (hinj : ∀ i j : Fin 32, isUsed b.sources[i].used = true → isUsed b.sources[j].used = true →
      b.sources[i].address = b.sources[j].address → i = j) :
    ruleMatches b.rules[k] c.cls c.object (sourceGroups b c.source) = true ↔ Matches b c k := by
  rw [ruleMatches, Bool.and_eq_true, Bool.and_eq_true, Bool.or_eq_true, Bool.or_eq_true, sharesGroup_iff, beq_iff_eq,
    Matches, and_assoc]
  refine and_congr Iff.rfl (and_congr ?_ (or_congr Iff.rfl ?_))
  · cases hasObject c.cls <;> simp [BitVec.le_def]
  · simp only [sourceGroups_iff hinj]
    constructor
    · rintro ⟨g, hg, j, hused, haddress, hj⟩
      exact ⟨j, g, hused, haddress, hg, hj⟩
    · rintro ⟨j, g, hused, haddress, hg, hj⟩
      exact ⟨g, hg, j, hused, haddress, hj⟩

/-- The controller's chain and then the common one (R40). -/
theorem decidingRule_eq {own common : List (Fin 256)} (hown : ChainFrom b b.controllers[c.slot].chainHead own)
    (hcommon : ChainFrom b b.commonHead common) :
    decidingRule b c =
      (own ++ common).find? (fun k => ruleMatches b.rules[k] c.cls c.object (sourceGroups b c.source)) := by
  rw [decidingRule, firstMatch, walkChain_eq hown (chain_length hown), walkChain_eq hcommon (chain_length hcommon),
    List.find?_append]
  cases own.find? _ <;> rfl

/-- Settles O20. -/
theorem frozenAndUnruledCommandsAreDenied : Obligations.FrozenAndUnruledCommandsAreDenied := by
  refine ⟨fun station b c hpass hused => ?_, fun dt frame s c henforce h hc => ⟨fun hcls hfrozen => ?_,
    fun hcls hopen hrule => ?_, fun k hopen hrule => ⟨fun haction => ?_, fun haction hwindow => ?_⟩⟩⟩
  · obtain ⟨⟨common, hcommon⟩, -, hcontrollers, hinj, -⟩ := firstFailure_eq_none_iff.mp hpass
    obtain ⟨-, ⟨own, hown⟩, -⟩ := hcontrollers c.slot hused
    refine ⟨own, common, hown, hcommon, fun k => ?_, ?_⟩
    · rw [decidingRule_eq hown hcommon, List.find?_eq_some_iff_append, ruleMatches_iff hinj]
      simp only [Bool.not_eq_true', Bool.eq_false_iff, ne_eq, ruleMatches_iff hinj]
      constructor
      · rintro ⟨hk, before, after, heq, hbefore⟩
        exact ⟨before, after, heq, hk, hbefore⟩
      · rintro ⟨before, after, heq, hk, hbefore⟩
        exact ⟨hk, before, after, heq, hbefore⟩
    · rw [decidingRule_eq hown hcommon, List.find?_eq_none]
      simp only [ruleMatches_iff hinj]
  all_goals rw [exec_command henforce h hc]
  · rw [enforceCommand_of_frozen (s := countReceived (s.elapse dt) .net) hcls hfrozen, deniedFrame_eq fun _ => rfl]
    rfl
  · rw [enforceCommand_of_ending (s := countReceived (s.elapse dt) .net) (e := .denied .default none) (.inr hopen) ?_,
      deniedFrame_eq fun _ => rfl]
    · rfl
    · have hnone : decidingRule (countReceived (s.elapse dt) .net).activeBank c = none := hrule
      rw [hnone, actionStep, if_neg hcls]
  · rw [enforceCommand_of_ending (s := countReceived (s.elapse dt) .net) (e := .denied .rule (some k)) hopen ?_,
      deniedFrame_eq fun _ => rfl]
    · rfl
    · have hsome : decidingRule (countReceived (s.elapse dt) .net).activeBank c = some k := hrule
      have hdeny : (countReceived (s.elapse dt) .net).activeBank.rules[k].action = 1 := haction
      rw [hsome, actionStep, hdeny]
      rfl
  · rw [enforceCommand_of_ending (s := countReceived (s.elapse dt) .net) (e := .denied .noWindow (some k)) hopen ?_,
      deniedFrame_eq fun _ => rfl]
    · rfl
    · have hsome : decidingRule (countReceived (s.elapse dt) .net).activeBank c = some k := hrule
      have hdeny : (countReceived (s.elapse dt) .net).activeBank.rules[k].action = 2 := haction
      have hclosed : inWindow (countReceived (s.elapse dt) .net) c.slot = false := hwindow
      rw [hsome, actionStep, hdeny, hclosed]
      rfl

end Sys2Proof.Proofs.Downstream
end

section
/-! Frame kinds, classes and the malformed test, and the frames that no chain decides (O19). -/

namespace Sys2Proof.Proofs.Kinds

open Sys2Proof Sys2Proof.Machine Sys2Proof.Claims Sys2Proof.Laws Sys2Proof.Proofs Sys2Proof.Proofs.Consistency
open Sys2Proof.Proofs.Downstream Sys2Proof.Proofs.ResetAndSave

variable {s u : State} {l : Layers} {frame : List Byte} {b : Bank} {p : Profile} {payload : List Byte}

/-! ### Recognition (R11, R14) -/

theorem isFragment_eq_false : isFragment l = false ↔ ∀ ip, readIpv4 l = some ip → ip.fragment = false := by
  rw [isFragment]
  cases readIpv4 l with
  | none => exact ⟨fun _ _ h => (Option.some_ne_none _ h.symm).elim, fun _ => rfl⟩
  | some ip => exact ⟨fun h _ hip => Option.some.inj hip ▸ h, fun h => h ip rfl⟩

theorem matchesProfile_iff {downstream : Bool} : matchesProfile p downstream l = true ↔ Recognised p downstream l := by
  unfold matchesProfile Recognised
  by_cases h0 : p.kind = 0
  · have h1 : p.kind ≠ 1 := fun h => absurd (h0.symm.trans h) (by decide)
    rw [if_pos h0, Bool.and_eq_true, Bool.or_eq_true, beq_iff_eq, Bool.not_eq_true', isFragment_eq_false]
    exact ⟨fun h => .inl ⟨h0, h⟩, fun h => h.elim And.right fun h => absurd h.1 h1⟩
  · by_cases h1 : p.kind = 1
    · have hport : (p.kind = 0 ∧ l.payloadType = some p.matchValue ∧
          (downstream = true ∨ ∀ ip, readIpv4 l = some ip → ip.fragment = false)) ∨ (p.kind = 1 ∧ ∃ u,
          readUdp l = some u ∧ (if downstream = true then u.destinationPort else u.sourcePort) = p.matchValue) ↔
          ∃ u, readUdp l = some u ∧ (if downstream = true then u.destinationPort else u.sourcePort) = p.matchValue :=
        ⟨fun h => h.elim (fun h => absurd h.1 h0) And.right, fun h => .inr ⟨h1, h⟩⟩
      rw [if_neg h0, if_pos h1, hport]
      cases readUdp l with
      | none => simp
      | some u => simp
    · rw [if_neg h0, if_neg h1]
      exact ⟨fun h => (Bool.false_ne_true h).elim, fun h => h.elim (fun h => absurd h.1 h0) fun h => absurd h.1 h1⟩

theorem isFragmentFor_iff : isFragmentFor p l = true ↔ FragmentCase p l := by
  unfold isFragmentFor FragmentCase
  rw [Bool.and_eq_true, beq_iff_eq]
  refine and_congr_right fun _ => ?_
  cases readIpv4 l with
  | none => simp
  | some ip => simp

/-! ### Slots (R13) -/

theorem mem_usedSlots {slot : Fin 16} : slot ∈ usedSlots b ↔ slotUsed b slot = true := by
  simp [usedSlots, allSlots]

theorem slotOfAddress_of_used {slot : Fin 16} (hused : slotUsed b slot = true)
    (hinj : ∀ j : Fin 16, slotUsed b j = true → b.controllers[slot].address = b.controllers[j].address → slot = j) :
    slotOfAddress b b.controllers[slot].address = some slot := by
  cases h : slotOfAddress b b.controllers[slot].address with
  | none => exact absurd (beq_self_eq_true _) (List.find?_eq_none.mp h slot (mem_usedSlots.mpr hused))
  | some j =>
    have hfound : b.controllers[j].address = b.controllers[slot].address := by
      unfold slotOfAddress at h
      have hj := List.find?_some h
      rwa [beq_iff_eq] at hj
    rw [hinj j (mem_usedSlots.mp (List.mem_of_find?_eq_some h)) hfound.symm]

theorem slotOfAddress_of_none {a : MacAddress}
    (h : ∀ slot : Fin 16, slotUsed b slot = true → b.controllers[slot].address ≠ a) : slotOfAddress b a = none :=
  List.find?_eq_none.mpr fun slot hslot => by
    rw [beq_iff_eq]
    exact h slot (mem_usedSlots.mp hslot)

theorem profileOfSlot_eq {slot : Fin 16} {i : Fin 8} (h : b.controllers[slot].profile.toNat = i.val) :
    profileOfSlot b slot = some (i, b.profiles[i]) := by
  have hlt : b.controllers[slot].profile.toNat < 8 := h ▸ i.isLt
  have hsame : ∀ (k : Nat) (hk : k < 8), k = i.val →
      some ((⟨k, hk⟩ : Fin 8), b.profiles[k]) = some (i, b.profiles[i]) := by
    rintro _ _ rfl
    rfl
  exact (dif_pos hlt).trans (hsame _ hlt h)

theorem profileOfSlot_eq_some {slot : Fin 16} {x : Fin 8 × Profile} (h : profileOfSlot b slot = some x) :
    b.controllers[slot].profile.toNat = x.1.val ∧ x.2 = b.profiles[x.1] := by
  unfold profileOfSlot at h
  split at h
  · cases h
    exact ⟨rfl, rfl⟩
  · cases h

theorem guardedBroadcast_iff {slot : Fin 16} :
    guardedBroadcast b l slot = true ↔ ∃ i : Fin 8, b.controllers[slot].profile.toNat = i.val ∧
      Recognised b.profiles[i] true l ∧
      ∀ code, readCode b.profiles[i] (protocolPayload b.profiles[i] l).bytes = some code →
        classOfCode b i code ≠ .read := by
  have hprofile : ∀ i : Fin 8, b.controllers[slot].profile.toNat = i.val → (guardedBroadcast b l slot = true ↔
      Recognised b.profiles[i] true l ∧
      ∀ code, readCode b.profiles[i] (protocolPayload b.profiles[i] l).bytes = some code →
        classOfCode b i code ≠ .read) := fun i hi => by
    rw [guardedBroadcast, profileOfSlot_eq hi]
    dsimp only
    rw [Bool.and_eq_true, matchesProfile_iff]
    refine and_congr_right fun _ => ?_
    cases readCode b.profiles[i] (protocolPayload b.profiles[i] l).bytes with
    | none => simp
    | some code => simp
  constructor
  · intro h
    cases hx : profileOfSlot b slot with
    | none => rw [guardedBroadcast, hx] at h; cases h
    | some x =>
      have hi := (profileOfSlot_eq_some hx).1
      exact ⟨x.1, hi, (hprofile x.1 hi).mp h⟩
  · rintro ⟨i, hi, h⟩
    exact (hprofile i hi).mpr h

theorem guarded_iff :
    (usedSlots b).any (guardedBroadcast b l) = true ↔ ∃ (slot : Fin 16) (i : Fin 8), slotUsed b slot = true ∧
      b.controllers[slot].profile.toNat = i.val ∧ Recognised b.profiles[i] true l ∧
      ∀ code, readCode b.profiles[i] (protocolPayload b.profiles[i] l).bytes = some code →
        classOfCode b i code ≠ .read := by
  simp only [List.any_eq_true, mem_usedSlots, guardedBroadcast_iff, exists_and_left]

/-! ### The kinds (R15, R16) -/

theorem classifyDownstream_of_slot {slot : Fin 16} {i : Fin 8} (hslot : slotOfAddress b l.destination = some slot)
    (hi : b.controllers[slot].profile.toNat = i.val) :
    (Recognised b.profiles[i] true l ∨ FragmentCase b.profiles[i] l →
      classifyDownstream b l = .command slot i b.profiles[i]) ∧
    (¬ (Recognised b.profiles[i] true l ∨ FragmentCase b.profiles[i] l) → classifyDownstream b l = .unguarded slot) := by
  rw [classifyDownstream, hslot]
  dsimp only
  rw [profileOfSlot_eq hi]
  dsimp only
  rw [← matchesProfile_iff, ← isFragmentFor_iff, ← Bool.or_eq_true]
  exact ⟨fun h => if_pos h, fun h => if_neg h⟩

theorem classifyUpstream_of_slot {slot : Fin 16} {i : Fin 8} (hslot : slotOfAddress b l.source = some slot)
    (hi : b.controllers[slot].profile.toNat = i.val) :
    (Recognised b.profiles[i] false l → classifyUpstream b l = .response slot b.profiles[i]) ∧
    (¬ Recognised b.profiles[i] false l → classifyUpstream b l = .unguarded slot) := by
  rw [classifyUpstream, hslot]
  dsimp only
  rw [profileOfSlot_eq hi]
  dsimp only
  rw [← matchesProfile_iff]
  exact ⟨fun h => if_pos h, fun h => if_neg h⟩

theorem classifyUpstream_transit (h : slotOfAddress b l.source = none) : classifyUpstream b l = .transit := by
  rw [classifyUpstream, h]

theorem classifyDownstream_of_noSlot (h : slotOfAddress b l.destination = none) :
    classifyDownstream b l =
      if isGroup l.destination && (usedSlots b).any (guardedBroadcast b l) then .broadcastCommand else .transit := by
  rw [classifyDownstream, h]

/-! ### The class of a code (R22) -/

theorem classOfCode_of_entry {i : Fin 8} {code : Nat} {e : Fin 32} {cls : CommandClass}
    (hinj : ∀ k : Fin 32, isUsed b.codeMap[codeMapIndex i k].used = true →
      b.codeMap[codeMapIndex i e].code = b.codeMap[codeMapIndex i k].code → e = k)
    (hused : isUsed b.codeMap[codeMapIndex i e].used = true) (hcode : b.codeMap[codeMapIndex i e].code.toNat = code)
    (hcls : classOfByte b.codeMap[codeMapIndex i e].cls = some cls) : classOfCode b i code = cls := by
  unfold classOfCode
  split
  · next k hk =>
    have hfound := List.find?_some hk
    rw [Bool.and_eq_true, beq_iff_eq] at hfound
    rw [← hinj k hfound.1 (BitVec.eq_of_toNat_eq (hcode.trans hfound.2.symm)), hcls, Option.getD_some]
  · next hnone =>
    exact absurd (by rw [hused, hcode, beq_self_eq_true, Bool.and_true])
      (List.find?_eq_none.mp hnone e (List.mem_finRange e))

theorem classOfCode_of_unlisted {i : Fin 8} {code : Nat} {cls : CommandClass}
    (h : ∀ e : Fin 32, isUsed b.codeMap[codeMapIndex i e].used = true →
      b.codeMap[codeMapIndex i e].code.toNat ≠ code)
    (hcls : classOfByte b.profiles[i].unlistedClass = some cls) : classOfCode b i code = cls := by
  unfold classOfCode
  split
  · next k hk =>
    have hfound := List.find?_some hk
    rw [Bool.and_eq_true, beq_iff_eq] at hfound
    exact absurd hfound.2 (h k hfound.1)
  · rw [hcls, Option.getD_some]

/-! ### The malformed test (R28) -/

theorem readField_isSome {off : BitVec 16} {w : Nat} :
    (readField p payload off w).isSome = true ↔ off.toNat + w ≤ payload.length := by
  unfold readField
  split
  · next h => exact iff_of_true rfl (of_decide_eq_true h)
  · next h => exact iff_of_false Bool.false_ne_true fun hs => h (decide_eq_true hs)

theorem readField_eq_none {off : BitVec 16} {w : Nat} :
    readField p payload off w = none ↔ payload.length < off.toNat + w := by
  rw [← Nat.not_le, ← readField_isSome (p := p), Option.not_isSome_iff_eq_none]

/-- The fields of a list are complete. -/
abbrev Complete (payload : List Byte) (fields : List (Nat × Nat)) : Prop := ∀ f ∈ fields, f.1 + f.2 ≤ payload.length

theorem complete_nil : Complete payload [] := fun _ h => absurd h List.not_mem_nil

theorem complete_singleton {off w : Nat} : Complete payload [(off, w)] ↔ off + w ≤ payload.length :=
  List.forall_mem_singleton

theorem complete_tag :
    (p.tagWidth == 0 || (readTag p payload).isSome) = true ↔
      Complete payload (if p.tagWidth = 0 then [] else [(p.tagOffset.toNat, p.tagWidth.toNat)]) := by
  rw [Bool.or_eq_true, beq_iff_eq, readTag]
  by_cases h : p.tagWidth = 0
  · rw [if_pos h, if_pos h]
    exact iff_of_true (.inl h) complete_nil
  · rw [if_neg h, if_neg h, Option.isSome_map, readField_isSome, complete_singleton]
    exact or_iff_right h

theorem complete_object :
    (readObject p payload).isSome = true ↔
      Complete payload (if p.objectWidth = 0 then [] else [(p.objectOffset.toNat, p.objectWidth.toNat)]) := by
  unfold readObject
  by_cases h : p.objectWidth = 0
  · rw [if_pos h, if_pos h]
    exact iff_of_true rfl complete_nil
  · rw [if_neg h, if_neg h, Option.isSome_map, readField_isSome, complete_singleton]

theorem complete_segment :
    (!hasSegments p || (fieldComplete payload p.segmentNumberOffset 2 &&
        fieldComplete payload p.segmentLengthOffset 2)) = true ↔
      Complete payload (if p.segmentFields = 1 then [(p.segmentNumberOffset.toNat, 2), (p.segmentLengthOffset.toNat, 2)]
        else []) := by
  rw [Bool.or_eq_true, Bool.not_eq_true', hasSegments, beq_eq_false_iff_ne]
  by_cases h : p.segmentFields = 1
  · rw [if_pos h, Bool.and_eq_true, fieldComplete, fieldComplete, decide_eq_true_iff, decide_eq_true_iff, Complete,
      List.forall_mem_cons, List.forall_mem_singleton]
    exact or_iff_right fun hn => hn h
  · rw [if_neg h]
    exact iff_of_true (.inl h) complete_nil

theorem complete_append {f g : List (Nat × Nat)} :
    Complete payload (f ++ g) ↔ Complete payload f ∧ Complete payload g := List.forall_mem_append

theorem requiredComplete_iff {cls : CommandClass} :
    requiredComplete p payload cls = true ↔ Complete payload (requiredFields p cls) := by
  cases cls
  case read => exact complete_object
  case writeOther => exact complete_object
  case control => exact ⟨fun _ _ h => absurd h List.not_mem_nil, fun _ => rfl⟩
  case loadBegin => exact complete_tag
  case loadActivate => exact complete_tag
  case writeValue =>
    have hvalue : fieldComplete payload p.valueOffset 1 = true ↔ Complete payload [(p.valueOffset.toNat, 1)] := by
      simp [fieldComplete, Complete]
    simp only [requiredComplete, requiredFields, Bool.and_eq_true, complete_append, complete_tag, complete_object, hvalue]
  case loadSegment =>
    simp only [requiredComplete, requiredFields]
    rw [Bool.and_eq_true, complete_append, complete_tag, complete_segment]

theorem requiredComplete_eq_false {cls : CommandClass} :
    requiredComplete p payload cls = false ↔ ∃ f ∈ requiredFields p cls, payload.length < f.1 + f.2 := by
  rw [← Bool.not_eq_true, requiredComplete_iff]
  simp only [Complete, not_forall, Nat.not_le, exists_prop]

theorem segmentInRange_eq_false :
    segmentInRange p payload = false ↔
      payload.length < p.segmentPayloadOffset.toNat + (readSegment p payload).length.toNat := by
  rw [segmentInRange, decide_eq_false_iff_not, Nat.not_le]

theorem parseCommand_of_malformed {slot : Fin 16} {i : Fin 8} {reason : Reason} {object : Option (BitVec 32)}
    (h : MalformedAs b i p l reason object) : parseCommand b slot i p l = .malformed reason object := by
  rcases h with ⟨hfragment, rfl, rfl⟩ | ⟨hfragment, hshort, rfl, rfl⟩ | ⟨hfragment, code, hcode, h⟩
  · exact if_pos (isFragmentFor_iff.mpr hfragment)
  all_goals
    rw [parseCommand, if_neg (fun hf => hfragment (isFragmentFor_iff.mp hf))]
    dsimp only
  · have hnone : readCode p (protocolPayload p l).bytes = none := readField_eq_none.mpr hshort
    rw [hnone]
  · rw [hcode]
    dsimp only
    rcases h with ⟨hfields, rfl, rfl⟩ | ⟨hcls, hsegments, hfields, hrange, rfl, rfl⟩
    · rw [requiredComplete_eq_false.mpr hfields]
      rfl
    · rw [hcls, requiredComplete_iff.mpr hfields, segmentInRange_eq_false.mpr hrange]
      simp [hasSegments, hsegments]

theorem countGuardDrop_record (s : State) (e : EventRecord) :
    countGuardDrop (s.record e) .net = (countGuardDrop s .net).record e := by
  have hevents : (countGuardDrop s .net).events = s.events := rfl
  unfold State.record
  rw [hevents]
  split <;> rfl

theorem noticeAfter_forwardFrame {v : State} (h : v.events = u.events) :
    noticeAfter u (forwardFrame v .cell frame) = forwardFrame v .cell frame :=
  noticeAfter_of_sameEvents h

/-- Settles O19. -/
theorem framesWithoutAChain : Obligations.FramesWithoutAChain := by
  refine ⟨fun station b l hpass => ⟨fun slot i hused hi => ⟨fun ha => ?_, fun ha => ?_⟩, fun hnone => ?_,
    fun hnone guarded hguarded => ?_⟩, fun station b i code hpass hprofile => ⟨fun e hused hcode => ?_, fun hnone => ?_⟩,
    fun dt frame s henforce h => ⟨fun hkind => ?_, fun hkind => ?_, fun slot i p reason object hkind hmalformed => ?_,
      fun slot hkind => ?_⟩⟩
  · obtain ⟨-, -, hcontrollers, -⟩ := firstFailure_eq_none_iff.mp hpass
    exact classifyDownstream_of_slot (ha ▸ slotOfAddress_of_used hused (hcontrollers slot hused).2.2) hi
  · obtain ⟨-, -, hcontrollers, -⟩ := firstFailure_eq_none_iff.mp hpass
    exact classifyUpstream_of_slot (ha ▸ slotOfAddress_of_used hused (hcontrollers slot hused).2.2) hi
  · exact classifyUpstream_transit (slotOfAddress_of_none hnone)
  · rw [classifyDownstream_of_noSlot (slotOfAddress_of_none hnone)]
    have htest : (isGroup l.destination && (usedSlots b).any (guardedBroadcast b l)) = true ↔ guarded := by
      rw [Bool.and_eq_true, guarded_iff, hguarded]
    exact ⟨fun hg => if_pos (htest.mpr hg), fun hg => if_neg fun ht => hg (htest.mp ht)⟩
  · obtain ⟨-, hprofiles, -⟩ := firstFailure_eq_none_iff.mp hpass
    obtain ⟨⟨cls, hcls⟩, hinj⟩ := (hprofiles i hprofile).2 e hused
    rw [classOfCode_of_entry hinj hused hcode hcls, hcls]
  · obtain ⟨-, hprofiles, -⟩ := firstFailure_eq_none_iff.mp hpass
    obtain ⟨-, -, -, -, -, -, -, ⟨cls, hcls⟩, -⟩ := (hprofiles i hprofile).1
    rw [classOfCode_of_unlisted hnone hcls, hcls]
  all_goals
    rw [exec_frameArrival_net h, handleDownstream]
    have hbank : (countReceived (s.elapse dt) .net).activeBank = (s.elapse dt).activeBank := rfl
    have hmode : (countReceived (s.elapse dt) .net).mode = .enforce := henforce
    rw [hbank, hkind]
    generalize s.elapse dt = u at *
    generalize readLayers (withoutFcs frame) = l at *
    dsimp only
  · rw [noticeAfter_forwardFrame]
    all_goals rfl
  · rw [decideBroadcast, if_pos hmode, countGuardDrop_record]
    rfl
  · have hbank : (countReceived u .net).activeBank = u.activeBank := rfl
    rw [decideCommand, hbank, parseCommand_of_malformed hmalformed]
    dsimp only
    rw [applyByMode, if_pos hmode, deniedFrame_eq fun _ => rfl]
    rfl
  · have hbank : (countReceived u .net).activeBank = u.activeBank := rfl
    rw [decideUnguarded, hbank]
    split
    · rw [applyByMode, if_pos hmode, deniedFrame_eq fun _ => rfl]
      rfl
    · rw [noticeAfter_forwardFrame]
      all_goals rfl

end Sys2Proof.Proofs.Kinds
end

section
/-! Commands that steps 1 to 5 let through in ENFORCE: the action of a BOUND rule, tracking, and placement (O21). -/

namespace Sys2Proof.Proofs.Placement

open Sys2Proof Sys2Proof.Machine Sys2Proof.Claims Sys2Proof.Laws Sys2Proof.Proofs Sys2Proof.Proofs.Downstream
open Sys2Proof.Proofs.Kinds Sys2Proof.Proofs.ResetAndSave

variable {s u v : State} {c : Command} {l : Layers} {frame : List Byte} {a : Action} {rule : Option (Fin 256)}
  {d : Option (Fin 4)} {k : Fin 256} {vt : ValueType}

/-! ### Step 4 (R41 to R44) -/

theorem actionStep_of_unread (h : PermittedUnread s c) : actionStep s c l (decidingRule s.activeBank c) = {} := by
  rcases h with ⟨hread, hnone⟩ | ⟨k, hk, h⟩
  · rw [hnone, actionStep, if_pos hread]
  · rw [hk, actionStep]
    rcases h with h | ⟨h, hwindow⟩ | ⟨h, hfree⟩
    · rw [h]
      rfl
    · rw [h, hwindow]
      rfl
    · rw [h]
      exact if_pos hfree

/-- A command under a BOUND rule that is not free in a window, of a Value Type (R44). -/
structure UnderBound (s : State) (c : Command) (k : Fin 256) (vt : ValueType) : Prop where
  rule : decidingRule s.activeBank c = some k
  action : s.activeBank.rules[k].action = 3
  held : ¬ (s.activeBank.rules[k].freeInWindow = 1 ∧ inWindow s c.slot = true)
  type : valueTypeOfByte s.activeBank.rules[k].valueType = some vt

/-- The outcome of the Value Bound Unit for a command under a BOUND rule. -/
abbrev outcomeOf (s : State) (c : Command) (k : Fin 256) (vt : ValueType) (v : Int) : BoundOutcome :=
  boundOutcome (boundRuleOf vt s.activeBank.rules[k]) (reference s c.slot c.object) v

/-- The action that an outcome gives. -/
def actionOf (s : State) (c : Command) (l : Layers) (k : Fin 256) (vt : ValueType) (v : Int) : BoundOutcome → Action
  | .permit => { value := some (vt, v) }
  | .clamp q =>
    if checksumFails s c l then
      { ending := some (.malformed .badChecksum (some k) (some v)), value := some (vt, v) }
    else { value := some (vt, v), clampTo := some q }
  | .outOfBand => { ending := some (.valueRefused .outOfBand k v), value := some (vt, v) }
  | .noAdmissible => { ending := some (.valueRefused .noAdmissible k v), value := some (vt, v) }

theorem actionStep_of_bound (h : UnderBound s c k vt) :
    actionStep s c l (decidingRule s.activeBank c) =
      match readValue c.profile c.payload.bytes c.profile.valueOffset vt with
      | none => { ending := some (.malformed .short (some k) none) }
      | some v => actionOf s c l k vt v (outcomeOf s c k vt v) := by
  have hbound : actionStep s c l (some k) = boundAction s c l k := by
    rw [actionStep, h.action]
    rfl
  rw [h.rule, hbound, boundAction, if_neg h.held, h.type]
  dsimp only
  cases readValue c.profile c.payload.bytes c.profile.valueOffset vt with
  | none => rfl
  | some v =>
    dsimp only [outcomeOf]
    cases boundOutcome (boundRuleOf vt s.activeBank.rules[k]) (reference s c.slot c.object) v <;> rfl

theorem actionStep_of_short (h : UnderBound s c k vt)
    (hv : readValue c.profile c.payload.bytes c.profile.valueOffset vt = none) :
    actionStep s c l (decidingRule s.activeBank c) = { ending := some (.malformed .short (some k) none) } := by
  rw [actionStep_of_bound h, hv]

theorem actionStep_of_value {x : Int} (h : UnderBound s c k vt)
    (hv : readValue c.profile c.payload.bytes c.profile.valueOffset vt = some x) :
    actionStep s c l (decidingRule s.activeBank c) = actionOf s c l k vt x (outcomeOf s c k vt x) := by
  rw [actionStep_of_bound h, hv]

/-! ### Step 5 (R47) -/

theorem loadStep_eq_none (h : isLoadClass c.cls = false ∨ c.controller.imageCheck ≠ 1) : loadStep s c = none := by
  refine if_neg fun hload => ?_
  rw [Bool.and_eq_true, imageCheckOn, beq_iff_eq] at hload
  exact h.elim (fun h => Bool.false_ne_true (h.symm.trans hload.1)) fun h => h hload.2

/-! ### Step 6 (R48, R49, R75) -/

/-- The rule that would decide a READ as a WRITE_VALUE covers it when it is BOUND with Step above 0 (R49). -/
theorem coverage_eq (b : Bank) (c : Command) :
    coverage b c = (decidingRule b { c with cls := .writeValue }).bind (fun i =>
      if b.rules[i].action = 3 ∧ 0 < b.rules[i].step.toNat then valueTypeOfByte b.rules[i].valueType else none) := by
  rw [coverage, decidingRule]
  cases firstMatch b c.slot .writeValue c.object (sourceGroups b c.source) <;> rfl

/-- Without a decoded value or a verdict, a command asks for the entry of its class. -/
theorem trackRequest_unread : trackRequest s c {} none = plainEntry s c := by
  have hcover := coverage_eq s.activeBank c
  unfold trackRequest plainEntry loadEntry
  generalize decidingRule s.activeBank { c with cls := .writeValue } = r at hcover ⊢
  cases c.cls
  case read =>
    dsimp only [entryKindOf]
    rw [hcover]
    cases c.tag with
    | none => cases r <;> rfl
    | some tag =>
      cases r with
      | none => rfl
      | some i =>
        dsimp only [Option.bind_some]
        by_cases hcovered : s.activeBank.rules[i].action = 3 ∧ 0 < s.activeBank.rules[i].step.toNat
        · rw [if_pos hcovered, if_pos hcovered]
          cases valueTypeOfByte s.activeBank.rules[i].valueType <;> rfl
        · rw [if_neg hcovered, if_neg hcovered]
  all_goals cases c.tag <;> rfl

theorem entryKindOf_eq_read {cls : CommandClass} : entryKindOf cls = some .read ↔ cls = .read := by
  cases cls <;> decide

theorem trackRequest_kind {e : Outstanding} (h : trackRequest s c a d = some e) : entryKindOf c.cls = some e.kind := by
  unfold trackRequest at h
  split at h
  · next hkind _ =>
    split at h
    · cases h
      exact hkind
    · cases h
  · next hkind _ =>
    cases h
    exact hkind
  · next hkind _ =>
    cases h
    exact hkind
  · cases h

/-- The table with the entry asked for. -/
def tracked (s : State) (e : Option Outstanding) : State := { s with outstanding := entered s e }

theorem trackStep_of_finds {e : Option Outstanding} (h : trackRequest s c a d = e) (hfinds : Finds s e) :
    trackStep s c a d = (tracked s e, false) := by
  rw [trackStep, h]
  cases e with
  | none => rfl
  | some x =>
    dsimp only
    rw [hfinds x rfl]
    rfl

theorem trackStep_of_full {e : Option Outstanding} (h : trackRequest s c a d = e) (hfull : ¬ Finds s e) :
    trackStep s c a d = (s, decide (c.cls ≠ .read)) := by
  rw [trackStep, h]
  cases e with
  | none => exact absurd (fun _ hx => absurd hx.symm (Option.some_ne_none _)) hfull
  | some x =>
    have hroom : hasRoom s x.slot x.tag = false := by
      by_contra hroom
      refine hfull fun y hy => ?_
      rw [← Option.some.inj hy]
      exact Bool.of_not_eq_false hroom
    have hkind := trackRequest_kind h
    dsimp only
    rw [hroom]
    refine Prod.ext rfl ?_
    have hread : x.kind = .read ↔ c.cls = .read := by rw [← entryKindOf_eq_read, hkind, Option.some_inj]
    simp only [Bool.false_eq_true, if_false, ne_eq, bne, beq_eq_decide, hread, decide_not]

/-! ### Step 7 (R51) -/

theorem placeDecided_of_permit (h : a.clampTo = none) :
    placeDecided s c frame rule a = forwardFrame (countDecision s c.slot .permit) .cell frame := by
  unfold placeDecided
  rw [h]
  cases a.value <;> rfl

theorem countDecision_record (s : State) (e : EventRecord) (slot : Fin 16) (x : Decision) :
    countDecision (s.record e) slot x = (countDecision s slot x).record e := by
  have hevents : (countDecision s slot x).events = s.events := rfl
  unfold State.record
  rw [hevents]
  split <;> rfl

theorem forwardFrame_record (s : State) (e : EventRecord) (f : List Byte) :
    forwardFrame (s.record e) .cell f = (forwardFrame s .cell f).record e := by
  have hevents : (forwardFrame s .cell f).events = s.events := rfl
  unfold State.record
  rw [hevents]
  split <;> rfl

theorem placeDecided_of_clamp {x q : Int} :
    placeDecided s c frame rule { value := some (vt, x), clampTo := some q } =
      (forwardFrame (countDecision s c.slot .clamp) .cell (withFcs (rewriteFrame c (withoutFcs frame) vt q))).record
        (clampRecord s c rule x q) := by
  rw [← forwardFrame_record, ← countDecision_record]
  rfl

/-! ### Steps 6 and 7 without a verdict -/

theorem enforceTrack_of_finds {e : Option Outstanding} (h : trackRequest s c a none = e) (hfinds : Finds s e) :
    enforceTrack s c frame rule a none = placeDecided (tracked s e) c frame rule a := by
  unfold enforceTrack
  rw [Option.map_none, trackStep_of_finds h hfinds]
  rfl

theorem enforceTrack_of_full {e : Option Outstanding} (h : trackRequest s c a none = e) (hfull : ¬ Finds s e) :
    enforceTrack s c frame rule a none =
      if c.cls = .read then placeDecided s c frame rule a
      else applyEnding s c.slot c.source (eventObject c) (trackFullEnding s a rule) := by
  unfold enforceTrack
  rw [Option.map_none, trackStep_of_full h hfull]
  by_cases hread : c.cls = .read
  · rw [if_pos hread]
    simp [hread, applyPass]
  · rw [if_neg hread]
    simp [hread]

theorem permittedFrame_eq (u : State) (c : Command) (e : Option Outstanding) (frame : List Byte) :
    noticeAfter u (forwardFrame (countDecision (tracked (countReceived u .net) e) c.slot .permit) .cell frame) =
      permittedFrame u c e frame := by
  rw [noticeAfter_forwardFrame]
  all_goals rfl

theorem eventObject_writeValue (h : c.cls = .writeValue) : eventObject c = some c.object := by
  rw [eventObject, h]
  rfl

/-- The entry a WRITE_VALUE asks for once its value is decoded (R74). -/
def writeEntry (s : State) (c : Command) (vt : ValueType) (f : Int) : Option Outstanding :=
  c.tag.map (fun tag =>
    { slot := c.slot, address := c.controller.address, tag := tag, kind := .write, object := some c.object,
      forwarded := some f, valueType := some vt, deadline := s.clock + responseTimeoutMs c.profile })

theorem trackRequest_write {x f : Int} (hcls : c.cls = .writeValue) (hvalue : a.value = some (vt, x))
    (hforwarded : forwardedValue s a = some f) :
    trackRequest s c a none = writeEntry s c vt f := by
  unfold trackRequest writeEntry
  rw [hcls, hforwarded, hvalue]
  cases c.tag <;> rfl

/-- A refusal of the Value Bound Unit is counted in Refused and is a violation (R51, R53, R54). -/
theorem refusedFrame_eq (u : State) (c : Command) (reason : Reason) (k : Fin 256) (x : Int) :
    noticeAfter u (applyEnding (countReceived u .net) c.slot c.source (eventObject c) (.valueRefused reason k x)) =
      noticeAfter u (State.record
        { u with
          net := { u.net with received := satAdd u.net.received 1 }
          decisions := counted u c.slot (fun y => { y with refused := satAdd y.refused 1 })
          guards := oneViolation u c.slot }
        { time := u.clock, kind := .valueRefused, reason := some reason, slot := some c.slot, rule := some k,
          source := some c.source, object := eventObject c, requested := some x }) := by
  rw [applyEnding_eq]
  rfl

/-- A command permitted with its value unread, after its frame is counted in Received. -/
theorem unread_placed (hf : Unfrozen u c) (hunread : PermittedUnread u c)
    (hload : isLoadClass c.cls = false ∨ c.controller.imageCheck ≠ 1) :
    noticeAfter u (enforceCommand (countReceived u .net) c l frame) =
      noticeAfter u (enforceTrack (countReceived u .net) c frame (decidingRule u.activeBank c) {} none) := by
  rw [enforceCommand_of_unchecked (s := countReceived u .net) hf
    (actionStep_of_unread (s := countReceived u .net) hunread) rfl (loadStep_eq_none hload)]
  rfl

/-- Settles O21. -/
theorem boundedWritesAreTrackedAsTheyLeave : Obligations.BoundedWritesAreTrackedAsTheyLeave := by
  refine ⟨fun dt frame s c henforce h hc hf hunread hload => ?_,
    fun dt frame s c k vt henforce h hc hcls hf hrule haction hheld htype => ?_⟩
  all_goals
    rw [exec_command henforce h hc]
    generalize s.elapse dt = u at *
    generalize readLayers (withoutFcs frame) = l
  · rw [unread_placed hf hunread hload]
    refine ⟨fun hfinds => ?_, fun hfull => ?_⟩
    · rw [enforceTrack_of_finds (s := countReceived u .net) (e := plainEntry u c) trackRequest_unread hfinds,
        placeDecided_of_permit rfl, permittedFrame_eq]
    · rw [enforceTrack_of_full (s := countReceived u .net) (e := plainEntry u c) trackRequest_unread hfull]
      split
      · rw [placeDecided_of_permit rfl]
        exact congrArg Host.Outcome.next (permittedFrame_eq u c none frame)
      · rw [deniedFrame_eq fun _ => rfl]
        rfl
  · have hbound : UnderBound (countReceived u .net) c k vt := ⟨hrule, haction, hheld, htype⟩
    refine ⟨fun hshort => ?_, fun x outcome entry hv houtcome hentry => ?_⟩
    · rw [enforceCommand_of_ending (s := countReceived u .net) (.inr hf)
        (congrArg Action.ending (actionStep_of_short hbound hshort)), deniedFrame_eq fun _ => rfl]
      rfl
    · have hstep : actionStep (countReceived u .net) c l (decidingRule (countReceived u .net).activeBank c) =
          actionOf (countReceived u .net) c l k vt x outcome := houtcome ▸ actionStep_of_value hbound hv
      subst hentry
      have hunchecked : loadStep (countReceived u .net) c = none := loadStep_eq_none (.inl (by rw [hcls]; rfl))
      have hobject : eventObject c = some c.object := eventObject_writeValue hcls
      have hnotRead : c.cls ≠ .read := by rw [hcls]; decide
      have hclampStep : ∀ q, outcome = .clamp q → checksumFails u c l = false →
          actionStep (countReceived u .net) c l (decidingRule (countReceived u .net).activeBank c) =
            { value := some (vt, x), clampTo := some q } := fun q hq hsound => by
        have hsound' : checksumFails (countReceived u .net) c l = false := hsound
        rw [hstep, hq, actionOf, hsound']
        rfl
      have hforwarded : ∀ q, forwardedValue (countReceived u .net) { value := some (vt, x), clampTo := some q } =
          some q := fun q => if_pos henforce
      refine ⟨fun hpermit hfinds => ?_, fun q hq hsound hfinds => ?_, fun q hq hbad => ?_, fun f hout hfull => ?_,
        fun reason hout => ?_⟩
      · rw [hpermit, actionOf] at hstep
        rw [enforceCommand_of_unchecked (s := countReceived u .net) (.inr hf) hstep rfl hunchecked,
          enforceTrack_of_finds (s := countReceived u .net) (e := writeEntry u c vt x) (trackRequest_write hcls rfl rfl) hfinds, placeDecided_of_permit rfl]
        exact congrArg Host.Outcome.next (permittedFrame_eq u c _ frame)
      · rw [enforceCommand_of_unchecked (s := countReceived u .net) (.inr hf) (hclampStep q hq hsound) rfl hunchecked,
          enforceTrack_of_finds (s := countReceived u .net) (e := writeEntry u c vt q)
            (trackRequest_write hcls rfl (hforwarded q)) hfinds, placeDecided_of_clamp, clampRecord,
          hobject]
        have hk : decidingRule (countReceived u .net).activeBank c = some k := hrule
        rw [hk]
        rfl
      · have hbad' : checksumFails (countReceived u .net) c l = true := hbad
        rw [hq, actionOf, hbad'] at hstep
        rw [enforceCommand_of_ending (s := countReceived u .net) (.inr hf) (congrArg Action.ending hstep),
          deniedFrame_eq fun _ => rfl, hobject]
        rfl
      · have hfullAction : ∃ a : Action,
            actionStep (countReceived u .net) c l (decidingRule (countReceived u .net).activeBank c) = a ∧
              a.ending = none ∧ a.value = some (vt, x) ∧ forwardedValue (countReceived u .net) a = some f := by
          rcases hout with ⟨hpermit, rfl⟩ | ⟨hq, hsound⟩
          · exact ⟨actionOf (countReceived u .net) c l k vt f .permit, hpermit ▸ hstep, rfl, rfl, rfl⟩
          · exact ⟨_, hclampStep f hq hsound, rfl, rfl, hforwarded f⟩
        obtain ⟨a, ha, hnone, hvalue, hcarried⟩ := hfullAction
        rw [enforceCommand_of_unchecked (s := countReceived u .net) (.inr hf) ha hnone hunchecked,
          enforceTrack_of_full (s := countReceived u .net) (e := writeEntry u c vt f)
            (trackRequest_write hcls hvalue hcarried) hfull, if_neg hnotRead,
          deniedFrame_eq fun _ => rfl, trackFullEnding, hvalue, hcarried, hobject]
        have hk : decidingRule (countReceived u .net).activeBank c = some k := hrule
        rw [hk]
        rfl
      · have hrefused : actionStep (countReceived u .net) c l (decidingRule (countReceived u .net).activeBank c) =
            { ending := some (.valueRefused reason k x), value := some (vt, x) } := by
          rw [hstep]
          rcases hout with ⟨h, rfl⟩ | ⟨h, rfl⟩ <;> rw [h] <;> rfl
        rw [enforceCommand_of_ending (s := countReceived u .net) (.inr hf) (congrArg Action.ending hrefused),
          refusedFrame_eq, hobject]

end Sys2Proof.Proofs.Placement
end

section
/-! Load commands in ENFORCE: the verdicts of the Load Checker, what a pass makes of its record, and what a refusal frees
(O22, O23). -/

namespace Sys2Proof.Proofs.LoadChecks

open Sys2Proof Sys2Proof.Machine Sys2Proof.Claims Sys2Proof.Laws Sys2Proof.Proofs Sys2Proof.Proofs.Changes
open Sys2Proof.Proofs.Consistency Sys2Proof.Proofs.Downstream Sys2Proof.Proofs.Kinds Sys2Proof.Proofs.Placement
open Sys2Proof.Proofs.ResetAndSave Sys2Proof.Proofs.Expiries

variable {s u : State} {c : Command} {l : Layers} {frame : List Byte} {b : Bank} {d : Fin 4} {r : Download}
  {rule : Option (Fin 256)}

/-! ### Finding records and images (R110, R113, R114, R120) -/

theorem find_finRange_eq_some {n : Nat} {p : Fin n → Bool} {k : Fin n} :
    (List.finRange n).find? p = some k ↔ p k = true ∧ ∀ j < k, p j = false := by
  have hval : (List.finRange n).find? p = some k ↔ ((List.finRange n).find? p).map Fin.val = some k.val := by
    rw [← Option.map_some, (Option.map_injective Fin.val_injective).eq_iff]
  rw [hval, find_finRange]
  constructor
  · rintro ⟨⟨i, hi, hp⟩, hbefore⟩
    obtain rfl := Fin.ext hi
    exact ⟨hp, fun j hj => Bool.eq_false_iff.mpr fun hpj => hbefore j hj ⟨j, rfl, hpj⟩⟩
  · rintro ⟨hp, hbefore⟩
    refine ⟨⟨k, rfl, hp⟩, ?_⟩
    rintro _ hlt ⟨j, rfl, hj⟩
    exact Bool.false_ne_true ((hbefore j hlt).symm.trans hj)

theorem loadOf_of_held {slot : Fin 16} (hone : OneLoadEach s) (hd : s.loads[d] = some r) (hr : r.controller = slot) :
    loadOf s slot = some d := by
  cases h : loadOf s slot with
  | none => exact absurd hr (loadOf_eq_none h d r hd)
  | some e =>
    obtain ⟨q, he, hq⟩ := loadOf_eq_some h
    rw [hone d e r q hd he (hr.trans hq.symm)]

theorem loadOf_of_none {slot : Fin 16} (h : ∀ (e : Fin 4) (q : Download), s.loads[e] = some q → q.controller ≠ slot) :
    loadOf s slot = none := by
  cases hfound : loadOf s slot with
  | none => rfl
  | some e =>
    obtain ⟨q, he, hq⟩ := loadOf_eq_some hfound
    exact absurd hq (h e q he)

theorem freeLoad_eq_some (hd : s.loads[d] = none) (hbefore : ∀ e < d, s.loads[e] ≠ none) : freeLoad s = some d :=
  find_finRange_eq_some.mpr ⟨by rw [hd]; rfl, fun e he => Option.isNone_eq_false_iff.mpr
    (Option.isSome_iff_ne_none.mpr (hbefore e he))⟩

theorem freeLoad_eq_none (h : ∀ e : Fin 4, s.loads[e] ≠ none) : freeLoad s = none :=
  List.find?_eq_none.mpr fun e _ he => h e (Option.isNone_iff_eq_none.mp he)

/-- An Approved Image entry has a record's length and CRC, for its controller (R120). -/
abbrev Approves (b : Bank) (slot : Fin 16) (r : Download) (k : Fin 32) : Prop :=
  isUsed b.images[k].used = true ∧ b.images[k].mask.getLsbD slot = true ∧ b.images[k].length = r.byteCount ∧
    b.images[k].crc = ~~~ r.runningCrc

theorem matchImage_eq_some {slot : Fin 16} {k : Fin 32} :
    matchImage b slot r = some k ↔ Approves b slot r k ∧ ∀ j < k, ¬ Approves b slot r j := by
  have htest : ∀ j : Fin 32, (isUsed b.images[j].used && maskHas b.images[j].mask slot &&
      b.images[j].length == r.byteCount && b.images[j].crc == ~~~ r.runningCrc) = true ↔ Approves b slot r j := by
    intro j
    simp only [Bool.and_eq_true, beq_iff_eq, maskHas, and_assoc]
  rw [matchImage, find_finRange_eq_some, htest]
  simp only [← Bool.not_eq_true, htest]

/-! ### Verdicts (R113 to R120) -/

theorem loadStep_eq_verdict (hcls : isLoadClass c.cls = true) (hcheck : c.controller.imageCheck = 1) :
    loadStep s c = some (loadVerdict s c) := by
  rw [loadStep, hcls, imageCheckOn, hcheck]
  rfl

theorem loadVerdict_of_begin (hcls : c.cls = .loadBegin) : loadVerdict s c = beginVerdict s c.slot := if_pos hcls

/-- Without a LOADING record a segment or an activation is an orphan (R119). -/
theorem loadVerdict_of_orphan (hcls : c.cls ≠ .loadBegin)
    (h : ∀ (d : Fin 4) (r : Download), s.loads[d] = some r → r.controller = c.slot → r.state ≠ .loading) :
    loadVerdict s c = orphanVerdict := by
  rw [loadVerdict, if_neg hcls]
  cases hfound : loadOf s c.slot with
  | none => rfl
  | some d =>
    obtain ⟨r, hd, hr⟩ := loadOf_eq_some hfound
    dsimp only
    rw [hd]
    exact if_pos (h d r hd hr)

/-- With a LOADING record, the source is looked at first (R115), then what the command brings. -/
theorem loadVerdict_of_loading (hcls : c.cls ≠ .loadBegin) (hfound : loadOf s c.slot = some d) (hd : s.loads[d] = some r)
    (hloading : r.state = .loading) :
    loadVerdict s c =
      if r.source ≠ c.source then abortRefusal d r .sourceChanged
      else if c.cls = .loadActivate then activateVerdict s.activeBank c.slot d r
      else (c.segment.map (segmentVerdict d r)).getD (abortRefusal d r .outOfOrder) := by
  rw [loadVerdict, if_neg hcls, hfound]
  dsimp only
  rw [hd]
  dsimp only
  rw [if_neg (not_not.mpr hloading)]
  cases c.segment <;> rfl

/-! ### Steps 6 and 7 after a pass -/

theorem applyEnding_cell (s : State) (slot : Fin 16) (source : MacAddress) (object : Option (BitVec 32)) (e : Ending) :
    (applyEnding s slot source object e).cell = s.cell := by
  rw [applyEnding_eq, record_cell]
  rfl

/-- The entry kind of a load class. -/
theorem trackRequest_load {kind : EntryKind} (hkind : entryKindOf c.cls = some kind) (hload : isLoadClass c.cls = true)
    (d : Option (Fin 4)) : trackRequest s c {} d = loadEntry s c kind d := by
  unfold trackRequest loadEntry
  cases hcls : c.cls <;> rw [hcls] at hkind hload <;> cases hkind <;> cases hload <;> cases c.tag <;> rfl

theorem finds_loadEntry {kind : EntryKind} {d : Option (Fin 4)} :
    Finds s (loadEntry s c kind d) ↔ hasRoom s c.slot (c.tag.getD 0) = true ∨ c.tag = none := by
  unfold Finds loadEntry
  cases c.tag <;> simp

theorem enforceTrack_of_pass {e : Option Outstanding} {change : LoadChange} (h : trackRequest s c {} (some d) = e)
    (hfinds : Finds s e) :
    enforceTrack s c frame rule {} (some (d, change)) =
      forwardFrame (countDecision (applyLoadChange (tracked s e) c d change) c.slot .permit) .cell frame := by
  unfold enforceTrack
  dsimp only [Option.map_some]
  rw [trackStep_of_finds h hfinds, placeDecided_of_permit rfl]
  rfl

theorem enforceTrack_of_pass_full {e : Option Outstanding} {change : LoadChange}
    (h : trackRequest s c {} (some d) = e) (hfull : ¬ Finds s e) (hcls : c.cls ≠ .read) :
    enforceTrack s c frame rule {} (some (d, change)) =
      applyEnding s c.slot c.source (eventObject c) (.trackFull rule none none) := by
  unfold enforceTrack
  dsimp only [Option.map_some]
  rw [trackStep_of_full h hfull, decide_eq_true hcls]
  rfl

/-- A permitted load command whose verdict is a pass: tracked and placed with its change, or TRACK_FULL (R47). -/
theorem enforce_pass {kind : EntryKind} {change : LoadChange} (hf : Unfrozen u c) (hunread : PermittedUnread u c)
    (hkind : entryKindOf c.cls = some kind) (hload : isLoadClass c.cls = true) (hcheck : c.controller.imageCheck = 1)
    (hverdict : loadVerdict u c = .pass d change) :
    noticeAfter u (enforceCommand (countReceived u .net) c l frame) =
      if hasRoom u c.slot (c.tag.getD 0) = true ∨ c.tag = none then
        noticeAfter u (forwardFrame (countDecision
          (applyLoadChange (tracked (countReceived u .net) (loadEntry u c kind (some d))) c d change) c.slot .permit)
          .cell frame)
      else
        deniedFrame u c.slot false false (denialOf u c .trackFull none (decidingRule u.activeBank c)) := by
  have hrequest : trackRequest (countReceived u .net) c {} (some d) = loadEntry u c kind (some d) :=
    trackRequest_load hkind hload (some d)
  have hstep : loadStep (countReceived u .net) c = some (.pass d change) :=
    (loadStep_eq_verdict hload hcheck).trans (congrArg some hverdict)
  have hcls : c.cls ≠ .read := fun h => by rw [h] at hload; cases hload
  have hfinds : Finds (countReceived u .net) (loadEntry u c kind (some d)) ↔
      hasRoom u c.slot (c.tag.getD 0) = true ∨ c.tag = none := finds_loadEntry (s := u)
  rw [enforceCommand_of_pass (s := countReceived u .net) hf (actionStep_of_unread (s := countReceived u .net) hunread)
    rfl hstep]
  split
  · next hroom => rw [enforceTrack_of_pass hrequest (hfinds.mpr hroom)]
  · next hroom =>
    rw [enforceTrack_of_pass_full hrequest (fun hf => hroom (hfinds.mp hf)) hcls, deniedFrame_eq fun _ => rfl]
    rfl

/-- A permitted load command that is refused (R47, R113). -/
theorem enforce_refusal {kind : EventKind} {reason : Option Reason} {freed : Option (Fin 4)} {extra : Option Nat}
    (hf : Unfrozen u c) (hunread : PermittedUnread u c) (hload : isLoadClass c.cls = true)
    (hcheck : c.controller.imageCheck = 1) (hverdict : loadVerdict u c = .refusal kind reason freed extra) :
    noticeAfter u (enforceCommand (countReceived u .net) c l frame) =
      deniedFrame (applyRefusal u freed) c.slot (isViolation (.load kind reason none none)) false
        (loadRefusal u c kind reason extra) := by
  have hstep : loadStep (countReceived u .net) c = some (.refusal kind reason freed extra) :=
    (loadStep_eq_verdict hload hcheck).trans (congrArg some hverdict)
  have hreceived : applyRefusal (countReceived u .net) freed = countReceived (applyRefusal u freed) .net := by
    cases freed <;> rfl
  have hnotice : ∀ w, noticeAfter u w = noticeAfter (applyRefusal u freed) w := fun w => by cases freed <;> rfl
  have hclock : (applyRefusal u freed).clock = u.clock := by cases freed <;> rfl
  have hviolation : ∀ rule : Option (Fin 256), isViolation (.load kind reason rule extra) =
      isViolation (.load kind reason none none) := fun _ => by cases kind <;> rfl
  rw [enforceCommand_of_refusal (s := countReceived u .net) hf (actionStep_of_unread (s := countReceived u .net) hunread)
    rfl hstep, hreceived, hnotice, deniedFrame_eq fun _ => rfl, hclock, hviolation]
  rfl

/-! ### A LOAD_BEGIN placed (R114, R127) -/

/-- The record a LOAD_BEGIN makes. -/
theorem begin_placed {e : Option Outstanding}
    (hd : (∃ r, u.loads[d] = some r ∧ r.controller = c.slot) ∨ u.loads[d] = none) :
    forwardFrame (countDecision
        (applyLoadChange (tracked (countReceived u .net) e) c d .begin) c.slot .permit) .cell frame =
      addRecords
        { permittedFrame u c e frame with loads := u.loads.set d (some (newDownload u c)) }
        ((match u.loads[d] with
          | some r =>
            [{ time := u.clock, kind := .loadAborted, reason := some .restarted, slot := some c.slot,
               source := some r.source, extra := some r.byteCount.toNat }]
          | none => []) ++
          [{ time := u.clock, kind := .loadStarted, slot := some c.slot, source := some c.source }]) := by
  have hloads : (tracked (countReceived u .net) e).loads = u.loads := rfl
  rw [applyLoadChange_begin, hloads, countDecision_record, forwardFrame_record]
  rcases hd with ⟨r, hd, hr⟩ | hd
  · rw [hd]
    dsimp only
    rw [countDecision_record, forwardFrame_record, abortRecord, hr]
    rfl
  · rw [hd]
    rfl

/-! ### The other changes (R116, R117, R120) -/

theorem segmentVerdict_fold {g : Segment} (hnumber : g.number = r.nextExpected)
    (hcount : r.byteCount.toNat + g.length.toNat ≤ 0xFFFFFFFF) : segmentVerdict d r g = .pass d (.fold g) := by
  rw [segmentVerdict, if_pos hnumber, if_neg (Nat.not_lt.mpr hcount)]

theorem segmentVerdict_duplicate {g : Segment} (hnumber : g.number ≠ r.nextExpected)
    (hlast : r.lastNumber = some g.number) (hlength : g.length = r.lastLength) (hcrc : crc32 g.data = r.lastSegmentCrc) :
    segmentVerdict d r g = .pass d .duplicate := by
  rw [segmentVerdict, if_neg hnumber, if_pos hlast, if_pos ⟨hlength, hcrc⟩]

theorem segmentVerdict_refusal {g : Segment} {reason : Option Reason}
    (h : (g.number = r.nextExpected ∧ 0xFFFFFFFF < r.byteCount.toNat + g.length.toNat ∧ reason = some .tooLong) ∨
      (g.number ≠ r.nextExpected ∧ r.lastNumber ≠ some g.number ∧ reason = some .outOfOrder) ∨
      (g.number ≠ r.nextExpected ∧ r.lastNumber = some g.number ∧
        (g.length ≠ r.lastLength ∨ crc32 g.data ≠ r.lastSegmentCrc) ∧ reason = some .substituted)) :
    segmentVerdict d r g = .refusal .loadAborted reason (some d) (some r.byteCount.toNat) := by
  rw [segmentVerdict]
  rcases h with ⟨hnumber, hcount, rfl⟩ | ⟨hnumber, hlast, rfl⟩ | ⟨hnumber, hlast, hother, rfl⟩
  · rw [if_pos hnumber, if_pos hcount]
    rfl
  · rw [if_neg hnumber, if_neg hlast]
    rfl
  · rw [if_neg hnumber, if_pos hlast, if_neg (not_and_or.mpr hother)]
    rfl

theorem applyLoadChange_fold {g : Segment} (hd : s.loads[d] = some r) :
    applyLoadChange s c d (.fold g) = s.setLoad d (some (foldSegment s c r g)) := by
  rw [applyLoadChange, hd]

theorem applyLoadChange_duplicate (hd : s.loads[d] = some r) :
    applyLoadChange s c d .duplicate =
      s.setLoad d (some { r with idleDeadline := s.clock + loadIdleMs c.profile }) := by
  rw [applyLoadChange, hd]

theorem applyLoadChange_activate {k : Fin 32} (hd : s.loads[d] = some r) :
    applyLoadChange s c d (.activate k) =
      s.setLoad d (some { r with
        state := .activating k
        idleDeadline := s.clock + responseTimeoutMs c.profile + loadIdleMs c.profile }) := by
  rw [applyLoadChange, hd]

/-- A change that leaves the record alone is no event; the frame is placed. -/
theorem change_placed {e : Option Outstanding} {change : LoadChange} {q : Download}
    (h : applyLoadChange (tracked (countReceived u .net) e) c d change =
      (tracked (countReceived u .net) e).setLoad d (some q)) :
    noticeAfter u (forwardFrame (countDecision
        (applyLoadChange (tracked (countReceived u .net) e) c d change) c.slot .permit) .cell frame) =
      { permittedFrame u c e frame with loads := u.loads.set d (some q) } := by
  rw [h, noticeAfter_forwardFrame]
  all_goals rfl

/-- The records that a pass makes at its change (R114, R127). -/
def changeRecords (s : State) (c : Command) (d : Fin 4) : LoadChange → List EventRecord
  | .begin => (s.loads[d].map (fun r => abortRecord s r .restarted)).toList ++
      [{ time := s.clock, kind := .loadStarted, slot := some c.slot, source := some c.source }]
  | .fold _ => []
  | .duplicate => []
  | .activate _ => []

/-- A pass changes the Download Records and makes its records. -/
theorem applyLoadChange_eq (s : State) (c : Command) (d : Fin 4) (change : LoadChange) :
    ∃ v, applyLoadChange s c d change = addRecords { s with loads := v } (changeRecords s c d change) := by
  cases change with
  | begin =>
    refine ⟨s.loads.set d (some (newDownload s c)), ?_⟩
    rw [applyLoadChange_begin, changeRecords]
    cases s.loads[d] <;> rfl
  | fold g =>
    cases hd : s.loads[d] with
    | none => exact ⟨s.loads, by rw [applyLoadChange, hd]; rfl⟩
    | some r => exact ⟨_, applyLoadChange_fold hd⟩
  | duplicate =>
    cases hd : s.loads[d] with
    | none => exact ⟨s.loads, by rw [applyLoadChange, hd]; rfl⟩
    | some r => exact ⟨_, applyLoadChange_duplicate hd⟩
  | activate k =>
    cases hd : s.loads[d] with
    | none => exact ⟨s.loads, by rw [applyLoadChange, hd]; rfl⟩
    | some r => exact ⟨_, applyLoadChange_activate hd⟩

/-- Settles O22. -/
theorem segmentsAreFoldedInOrder : Obligations.SegmentsAreFoldedInOrder := by
  intro dt frame s c henforce h hc hload hcheck hfrozen hunread hone
  rw [exec_command henforce h hc]
  generalize s.elapse dt = u at *
  generalize readLayers (withoutFcs frame) = l
  have hf : Unfrozen u c := .inr hfrozen
  refine ⟨fun hcls => ⟨fun d hd => ?_, fun hfull => ?_⟩, fun hcls horphan => ?_, fun d r hcls hd hr hloading => ?_⟩
  · have hverdict : loadVerdict u c = .pass d .begin := by
      rw [loadVerdict_of_begin hcls, beginVerdict]
      rcases hd with ⟨r, hd, hr⟩ | ⟨hd, hbefore, hnone⟩
      · rw [loadOf_of_held hone hd hr]
      · rw [loadOf_of_none hnone, freeLoad_eq_some hd hbefore]
    have hheld : (∃ r, u.loads[d] = some r ∧ r.controller = c.slot) ∨ u.loads[d] = none := hd.imp_right And.left
    rw [enforce_pass hf hunread (kind := .begin) (by rw [hcls]; rfl) hload hcheck hverdict, begin_placed hheld]
    rfl
  · have hverdict : loadVerdict u c = .refusal .loadNoSlot none none none := by
      have hother : ∀ (e : Fin 4) (q : Download), u.loads[e] = some q → q.controller ≠ c.slot := fun e q hq => by
        obtain ⟨r, hr, hcontroller⟩ := hfull e
        exact Option.some.inj (hr.symm.trans hq) ▸ hcontroller
      have hheld : ∀ e : Fin 4, u.loads[e] ≠ none := fun e he => by
        obtain ⟨r, hr, -⟩ := hfull e
        cases he.symm.trans hr
      rw [loadVerdict_of_begin hcls, beginVerdict, loadOf_of_none hother, freeLoad_eq_none hheld]
    rw [enforce_refusal hf hunread hload hcheck hverdict]
    rfl
  · rw [enforce_refusal hf hunread hload hcheck (loadVerdict_of_orphan hcls horphan)]
    rfl
  · have hloaded := loadVerdict_of_loading hcls (loadOf_of_held hone hd hr) hd hloading
    refine ⟨fun q hsource hq => ?_, fun kind reason hrefused => ?_, fun k => matchImage_eq_some⟩
    · rw [if_neg (not_not.mpr hsource)] at hloaded
      rcases hq with ⟨g, hsegment, hg, hq⟩ | ⟨hactivate, k, hk, rfl⟩
      · have hkind : entryKindOf c.cls = some .segment := by rw [hsegment]; rfl
        rw [if_neg (by rw [hsegment]; decide), hg] at hloaded
        rw [if_pos hsegment]
        rcases hq with ⟨hnumber, hcount, rfl⟩ | ⟨hnumber, hlast, hlength, hcrc, rfl⟩
        · rw [enforce_pass hf hunread hkind hload hcheck (hloaded.trans (segmentVerdict_fold hnumber hcount)),
            change_placed (q := foldSegment u c r g) (applyLoadChange_fold hd), foldSegment, hnumber]
        · rw [enforce_pass hf hunread hkind hload hcheck
              (hloaded.trans (segmentVerdict_duplicate hnumber hlast hlength hcrc)),
            change_placed (q := { r with idleDeadline := u.clock + loadIdleMs c.profile })
              (applyLoadChange_duplicate hd)]
      · have hkind : entryKindOf c.cls = some .activate := by rw [hactivate]; rfl
        rw [if_pos hactivate, activateVerdict, hk] at hloaded
        have hnotSegment : ¬ c.cls = .loadSegment := by rw [hactivate]; decide
        rw [enforce_pass hf hunread hkind hload hcheck hloaded, if_neg hnotSegment,
          change_placed
            (q := { r with
              state := .activating k
              idleDeadline := u.clock + responseTimeoutMs c.profile + loadIdleMs c.profile })
            (applyLoadChange_activate hd)]
    · have hverdict : loadVerdict u c = .refusal kind reason (some d) (some r.byteCount.toNat) ∧
          isViolation (.load kind reason none none) = true := by
        rcases hrefused with ⟨hsource, rfl, rfl⟩ | ⟨hsource, hactivate, hnone, rfl, rfl⟩ |
          ⟨hsource, hsegment, g, hg, rfl, hrefused⟩
        · exact ⟨hloaded.trans (if_pos hsource), rfl⟩
        · rw [if_neg (not_not.mpr hsource), if_pos hactivate, activateVerdict, hnone] at hloaded
          exact ⟨hloaded, rfl⟩
        · rw [if_neg (not_not.mpr hsource), if_neg (by rw [hsegment]; decide), hg] at hloaded
          exact ⟨hloaded.trans (segmentVerdict_refusal hrefused), rfl⟩
      rw [enforce_refusal hf hunread hload hcheck hverdict.1, hverdict.2]
      rfl

/-! ### What a placed command went through (O23) -/

theorem trackStep_frame (s : State) (c : Command) (a : Action) (d : Option (Fin 4)) :
    ∃ o, (trackStep s c a d).1 = { s with outstanding := o } := by
  by_cases hfinds : Finds s (trackRequest s c a d)
  · exact ⟨_, congrArg Prod.fst (trackStep_of_finds rfl hfinds)⟩
  · exact ⟨s.outstanding, congrArg Prod.fst (trackStep_of_full rfl hfinds)⟩

theorem applyRefusal_cell (s : State) (freed : Option (Fin 4)) : (applyRefusal s freed).cell = s.cell := by
  cases freed <;> rfl

/-- A command that leaves the CELL port as it was, or the placement of one that every step let through. -/
theorem enforceCommand_cases (s : State) (c : Command) (l : Layers) (frame : List Byte) :
    (enforceCommand s c l frame).cell = s.cell ∨
      ∃ a pass, actionStep s c l (decidingRule s.activeBank c) = a ∧ a.ending = none ∧
        loadStep s c = pass.map (fun x => LoadVerdict.pass x.1 x.2) ∧
        enforceCommand s c l frame =
          placeDecided (applyPass (trackStep s c a (pass.map (·.1))).1 c pass) c frame (decidingRule s.activeBank c)
            a := by
  have htrack : ∀ rule a pass, (enforceTrack s c frame rule a pass).cell = s.cell ∨
      enforceTrack s c frame rule a pass =
        placeDecided (applyPass (trackStep s c a (pass.map (·.1))).1 c pass) c frame rule a := fun rule a pass => by
    unfold enforceTrack
    dsimp only
    split
    · exact .inl (applyEnding_cell _ _ _ _ _)
    · exact .inr rfl
  by_cases hf : Unfrozen s c
  · cases hending : (actionStep s c l (decidingRule s.activeBank c)).ending with
    | some e =>
      rw [enforceCommand_of_ending hf hending]
      exact .inl (applyEnding_cell _ _ _ _ _)
    | none =>
      cases hload : loadStep s c with
      | none =>
        rw [enforceCommand_of_unchecked hf rfl hending hload]
        exact (htrack _ _ none).imp_right fun h => ⟨_, none, rfl, hending, rfl, h⟩
      | some verdict =>
        cases verdict with
        | refusal kind reason freed extra =>
          rw [enforceCommand_of_refusal hf rfl hending hload, applyEnding_cell, applyRefusal_cell]
          exact .inl rfl
        | pass d change =>
          rw [enforceCommand_of_pass hf rfl hending hload]
          exact (htrack _ _ (some (d, change))).imp_right fun h => ⟨_, some (d, change), rfl, hending, rfl, h⟩
  · obtain ⟨hcls, hfrozen⟩ := not_or.mp hf
    rw [enforceCommand_of_frozen hcls (not_not.mp hfrozen)]
    exact .inl (applyEnding_cell _ _ _ _ _)

theorem placeDecided_loads (s : State) (c : Command) (frame : List Byte) (rule : Option (Fin 256)) (a : Action) :
    (placeDecided s c frame rule a).loads = s.loads := by
  unfold placeDecided
  split
  · next x q _ _ => exact record_loads s (clampRecord s c rule x q)
  · rfl

/-- An activation that passes is of an image that is approved (R120). -/
theorem loadVerdict_of_activate {change : LoadChange} (hcls : c.cls = .loadActivate)
    (h : loadVerdict s c = .pass d change) :
    ∃ r k, s.loads[d] = some r ∧ r.controller = c.slot ∧ r.state = .loading ∧ r.source = c.source ∧
      Approves s.activeBank c.slot r k ∧ change = .activate k := by
  unfold loadVerdict at h
  rw [if_neg (show ¬ c.cls = .loadBegin by rw [hcls]; decide)] at h
  cases hfound : loadOf s c.slot with
  | none => rw [hfound] at h; cases h
  | some e =>
    obtain ⟨r, he, hr⟩ := loadOf_eq_some hfound
    rw [hfound] at h
    dsimp only at h
    rw [he] at h
    dsimp only at h
    split at h
    · cases h
    · next hloading =>
      split at h
      · cases h
      · next hsource =>
        rw [activateVerdict] at h
        cases hk : matchImage s.activeBank c.slot r with
        | none => rw [hk] at h; cases h
        | some k =>
          rw [hk] at h
          cases h
          exact ⟨r, k, he, hr, not_not.mp hloading, not_not.mp hsource, (matchImage_eq_some.mp hk).1, rfl⟩

/-- Settles O23. -/
theorem activationNeedsAnApprovedImage : Obligations.ActivationNeedsAnApprovedImage := by
  intro dt frame s t c henforce h hc hcls hcheck ht
  rw [exec_command henforce h hc] at ht
  generalize s.elapse dt = u at *
  obtain rfl := Host.Outcome.next.inj ht
  rcases enforceCommand_cases (countReceived u .net) c (readLayers (withoutFcs frame)) frame with
    hcell | ⟨a, pass, -, -, hpass, hplaced⟩
  · refine .inl ⟨?_, ?_⟩ <;> rw [noticeAfter_cell, hcell] <;> rfl
  · have hstep : loadStep (countReceived u .net) c = some (loadVerdict u c) :=
      loadStep_eq_verdict (by rw [hcls]; rfl) hcheck
    rw [hstep] at hpass
    cases pass with
    | none => cases hpass
    | some x =>
      obtain ⟨d, change⟩ := x
      obtain ⟨r, k, hd, hr, hloading, hsource, ⟨hused, hmask, hlength, hcrc⟩, rfl⟩ :=
        loadVerdict_of_activate hcls (Option.some.inj hpass)
      refine .inr ⟨d, r, k, hd, hr, hloading, hsource, hused, hmask, hlength, hcrc, ?_⟩
      obtain ⟨o, ho⟩ := trackStep_frame (countReceived u .net) c a ((some (d, LoadChange.activate k)).map (·.1))
      rw [noticeAfter_loads, hplaced, placeDecided_loads, ho, applyPass,
        applyLoadChange_activate (s := { countReceived u .net with outstanding := o }) hd]
      exact ⟨_, (Invariants.setLoad_get _ d d _).trans (if_pos rfl), rfl⟩

end Sys2Proof.Proofs.LoadChecks
end

section
/-! One's complement sums and the UDP checksum (R70, R72), for O26. -/

namespace Sys2Proof.Proofs.Checksums

open Sys2Proof Sys2Proof.Machine Sys2Proof.Claims Sys2Proof.Laws Sys2Proof.Proofs

/-! ### Splices -/

/-- A splice that ends within the run. -/
theorem splice_eq {l new : List Byte} {off : Nat} (h : off + new.length ≤ l.length) :
    splice l off new = l.take off ++ (new ++ l.drop (off + new.length)) := by
  rw [splice, List.take_of_length_le (show new.length ≤ l.length - off by omega)]

theorem take_splice {l new : List Byte} {off n : Nat} (h : off + new.length ≤ l.length) (hn : n ≤ off) :
    (splice l off new).take n = l.take n := by
  rw [splice_eq h, List.take_append_of_le_length (by rw [List.length_take]; omega), List.take_take, Nat.min_eq_left hn]

theorem drop_splice {l new : List Byte} {a k : Nat} (h : a + k + new.length ≤ l.length) :
    (splice l (a + k) new).drop a = splice (l.drop a) k new := by
  rw [splice_eq h, splice_eq (by rw [List.length_drop]; omega),
    List.drop_append_of_le_length (by rw [List.length_take]; omega), List.drop_take, List.drop_drop,
    Nat.add_sub_cancel_left, Nat.add_assoc]

theorem take_splice_of_le {l new : List Byte} {k n : Nat} (h : k + new.length ≤ n) (hn : n ≤ l.length) :
    (splice l k new).take n = splice (l.take n) k new := by
  have htake : (l.take k).length = k := by rw [List.length_take]; omega
  rw [splice_eq (by omega), splice_eq (by rw [List.length_take]; omega), List.take_append, List.take_append, htake,
    List.take_of_length_le (by omega : (l.take k).length ≤ n), List.take_of_length_le (by omega : new.length ≤ n - k),
    List.take_take, Nat.min_eq_left (by omega), List.drop_take, Nat.sub_sub]

/-- A splice inside a slice. -/
theorem slice_splice_inside {l new : List Byte} {a k n : Nat} (h : k + new.length ≤ n) (hn : a + n ≤ l.length) :
    slice (splice l (a + k) new) a n = splice (slice l a n) k new := by
  rw [slice, drop_splice (by omega), take_splice_of_le h (by rw [List.length_drop]; omega), slice]

theorem slice_length {l : List Byte} {a n : Nat} (h : a + n ≤ l.length) : (slice l a n).length = n := by
  rw [slice, List.length_take, List.length_drop]
  omega

/-! ### Sums of words (R70) -/

theorem wordSum_append : ∀ {a : List Byte} (b : List Byte), a.length % 2 = 0 →
    wordSum (a ++ b) = wordSum a + wordSum b
  | [], b, _ => by rw [List.nil_append, wordSum, Nat.zero_add]
  | [_], _, h => absurd h (by simp)
  | x :: y :: rest, b, h => by
    have ih := wordSum_append (a := rest) b (by simp only [List.length_cons] at h; omega)
    rw [List.cons_append, List.cons_append, wordSum, wordSum, ih]
    omega

theorem sum_words : ∀ l : List Byte, (words l).sum = wordSum l
  | [] => rfl
  | [x] => List.sum_singleton
  | x :: y :: rest => by rw [words, List.sum_cons, sum_words rest, wordSum]

theorem words_le : ∀ (l : List Byte), ∀ x ∈ words l, x ≤ 0xFFFF
  | [], x, h => absurd h List.not_mem_nil
  | [a], x, h => by
    have := List.mem_singleton.mp h
    have := a.isLt
    omega
  | a :: b :: rest, x, h => by
    rcases List.mem_cons.mp h with rfl | h
    · have := a.isLt
      have := b.isLt
      omega
    · exact words_le rest x h

theorem foldl_onesAdd_mod (l : List Nat) (a : Nat) : l.foldl onesAdd a % 0xFFFF = (a + l.sum) % 0xFFFF := by
  induction l generalizing a with
  | nil => rw [List.foldl_nil, List.sum_nil, Nat.add_zero]
  | cons x rest ih =>
    rw [List.foldl_cons, ih, Nat.add_mod, onesAdd_mod, ← Nat.add_mod, List.sum_cons, Nat.add_assoc]

theorem foldl_onesAdd_le {l : List Nat} (hl : ∀ x ∈ l, x ≤ 0xFFFF) {a : Nat} (ha : a ≤ 0xFFFF) :
    l.foldl onesAdd a ≤ 0xFFFF := by
  induction l generalizing a with
  | nil => exact ha
  | cons x rest ih =>
    have hx := hl x List.mem_cons_self
    refine ih (fun y hy => hl y (List.mem_cons_of_mem x hy)) ?_
    unfold onesAdd
    split <;> omega

theorem foldl_onesAdd_pos {l : List Nat} {a : Nat} (h : 0 < a + l.sum) : 0 < l.foldl onesAdd a := by
  induction l generalizing a with
  | nil => simpa using h
  | cons x rest ih =>
    rw [List.sum_cons] at h
    refine ih ?_
    unfold onesAdd
    split <;> omega

/-! ### The UDP checksum (R70, R72) -/

/-- The pseudo-header of R70. -/
def pseudoHeader (ip : Ipv4) (n : Nat) : List Byte :=
  beBytes 4 ip.source.toNat ++ beBytes 4 ip.destination.toNat ++ [0, 17] ++ beBytes 2 n

theorem pseudoHeader_length (ip : Ipv4) (n : Nat) : (pseudoHeader ip n).length = 12 := by
  simp [pseudoHeader]

theorem wordSum_pseudoHeader_pos (ip : Ipv4) (n : Nat) (l : List Byte) : 0 < wordSum (pseudoHeader ip n ++ l) := by
  rw [pseudoHeader, List.append_assoc, List.append_assoc, wordSum_append _ (by simp)]
  have hword : wordSum ([0, 17] ++ (beBytes 2 n ++ l)) = 17 + wordSum (beBytes 2 n ++ l) := rfl
  omega

/-- The sum of R70 is the plain sum up to multiples of FFFFH, and never 0. -/
theorem udpSum_spec (ip : Ipv4) (datagram : List Byte) :
    udpSum ip datagram % 0xFFFF = wordSum (pseudoHeader ip datagram.length ++ datagram) % 0xFFFF ∧
      0 < udpSum ip datagram ∧ udpSum ip datagram ≤ 0xFFFF := by
  have hsum : udpSum ip datagram = (words (pseudoHeader ip datagram.length ++ datagram)).foldl onesAdd 0 := rfl
  rw [hsum]
  refine ⟨?_, foldl_onesAdd_pos ?_, foldl_onesAdd_le (words_le _) (by omega)⟩
  · rw [foldl_onesAdd_mod, sum_words, Nat.zero_add]
  · rw [sum_words, Nat.zero_add]
    exact wordSum_pseudoHeader_pos ip _ _

theorem udpSum_eq_iff (ip : Ipv4) (datagram : List Byte) :
    udpSum ip datagram = 0xFFFF ↔ 0xFFFF ∣ wordSum (pseudoHeader ip datagram.length ++ datagram) := by
  obtain ⟨hmod, hpos, hle⟩ := udpSum_spec ip datagram
  omega

theorem checksumPasses_iff {u : Udp} (h : u.datagram.length = u.length.toNat) : checksumPasses u = true ↔ Sound u := by
  rw [checksumPasses, beq_iff_eq, udpSum_eq_iff, h]
  rfl

theorem wordSum_splice (head datagram : List Byte) (x y : Byte) (hhead : head.length % 2 = 0)
    (hlen : 8 ≤ datagram.length) :
    wordSum (head ++ splice datagram 6 [x, y]) =
      wordSum (head ++ datagram.take 6) + (x.toNat * 256 + y.toNat) + wordSum (datagram.drop 8) := by
  rw [splice_eq (by simpa using hlen), ← List.append_assoc, wordSum_append _ (by
    rw [List.length_append, List.length_take]
    omega)]
  exact (Nat.add_assoc _ _ _).symm

theorem freshChecksum_range (ip : Ipv4) (datagram : List Byte) :
    0 < freshChecksum ip datagram ∧ freshChecksum ip datagram ≤ 0xFFFF := by
  unfold freshChecksum
  dsimp only
  split <;> omega

theorem wordSum_beBytes {v : Nat} (h : v ≤ 0xFFFF) : ∃ x y, beBytes 2 v = [x, y] ∧ x.toNat * 256 + y.toNat = v := by
  refine ⟨_, _, rfl, ?_⟩
  simp only [BitVec.toNat_ofNat]
  omega

/-- A datagram with the checksum computed afresh passes the check (R72). -/
theorem freshChecksum_sound (ip : Ipv4) {datagram : List Byte} (hlen : 8 ≤ datagram.length) :
    0xFFFF ∣ wordSum (pseudoHeader ip datagram.length ++ splice datagram 6 (beBytes 2 (freshChecksum ip datagram))) := by
  have hhead : (pseudoHeader ip datagram.length).length % 2 = 0 := by rw [pseudoHeader_length]
  obtain ⟨hmod, hpos, hle⟩ := udpSum_spec ip (splice datagram 6 [0, 0])
  obtain ⟨x, y, hxy, hfresh⟩ := wordSum_beBytes (freshChecksum_range ip datagram).2
  rw [splice_length, wordSum_splice _ _ _ _ hhead hlen] at hmod
  rw [hxy, wordSum_splice _ _ _ _ hhead hlen, hfresh]
  have hcomplement : udpSum ip (splice datagram 6 [0, 0]) + freshChecksum ip datagram = 0xFFFF ∨
      udpSum ip (splice datagram 6 [0, 0]) + freshChecksum ip datagram = 2 * 0xFFFF := by
    unfold freshChecksum
    dsimp only
    split <;> omega
  have hzero : (0 : Byte).toNat * 256 + (0 : Byte).toNat = 0 := rfl
  rw [hzero] at hmod
  omega

end Sys2Proof.Proofs.Checksums
end

section
/-! The rewrite of a clamped frame, and the values that leave the part in ENFORCE (O26). -/

namespace Sys2Proof.Proofs.Rewrites

open Sys2Proof Sys2Proof.Machine Sys2Proof.Claims Sys2Proof.Laws Sys2Proof.Proofs Sys2Proof.Proofs.ManagementLink
open Sys2Proof.Proofs.Queries Sys2Proof.Proofs.Layouts Sys2Proof.Proofs.Checksums Sys2Proof.Proofs.Downstream
open Sys2Proof.Proofs.Placement Sys2Proof.Proofs.LoadChecks Sys2Proof.Proofs.Bounds Sys2Proof.Proofs.Expiries

variable {s u : State} {c : Command} {l : Layers} {f g : List Byte} {p : Profile} {vt : ValueType}

/-! ### Layers of frames that agree at their front (R10 to R12) -/

theorem slice_of_take {n i k : Nat} (h : g.take n = f.take n) (hi : i + k ≤ n) : slice g i k = slice f i k := by
  rw [← slice_take hi, h, slice_take hi]

theorem be16At_of_take {n i : Nat} (h : g.take n = f.take n) (hi : i + 2 ≤ n) : be16At g i = be16At f i := by
  rw [be16At, be16At, slice_of_take h hi]

theorem be32At_of_take {n i : Nat} (h : g.take n = f.take n) (hi : i + 4 ≤ n) : be32At g i = be32At f i := by
  rw [be32At, be32At, slice_of_take h hi]

theorem be48At_of_take {n i : Nat} (h : g.take n = f.take n) (hi : i + 6 ≤ n) : be48At g i = be48At f i := by
  rw [be48At, be48At, slice_of_take h hi]

theorem byteAt_of_take {n i : Nat} (h : g.take n = f.take n) (hi : i < n) : byteAt g i = byteAt f i := by
  rw [← byteAt_take hi, h, byteAt_take hi]

theorem readLayers_of_take {n : Nat} (h : g.take n = f.take n) (hn : 18 ≤ n) :
    readLayers g = { readLayers f with payload := g.drop (readLayers f).payloadStart } := by
  unfold readLayers
  rw [be16At_of_take (i := 12) h (by omega), be16At_of_take (i := 16) h (by omega), be48At_of_take (i := 0) h (by omega),
    be48At_of_take (i := 6) h (by omega), be32At_of_take (i := 12) h (by omega)]

theorem readIpv4_of_take {payload : List Byte} {n : Nat} (h : payload.take n = l.payload.take n) (hn : 20 ≤ n)
    (hlength : payload.length = l.payload.length) : readIpv4 { l with payload := payload } = readIpv4 l := by
  unfold readIpv4
  dsimp only
  rw [byteAt_of_take (i := 0) h (by omega), byteAt_of_take (i := 9) h (by omega), be16At_of_take (i := 2) h (by omega),
    be16At_of_take (i := 6) h (by omega), be32At_of_take (i := 12) h (by omega), be32At_of_take (i := 16) h (by omega),
    hlength]

theorem readIpv4_eq_some {ip : Ipv4} (h : readIpv4 l = some ip) :
    20 ≤ ip.headerLength ∧ ip.totalLength ≤ l.payload.length := by
  unfold readIpv4 at h
  dsimp only at h
  split at h
  · next hvalid =>
    obtain ⟨-, -, hheader, -, htotal⟩ := hvalid
    cases h
    exact ⟨hheader, htotal⟩
  · cases h

theorem readUdp_eq_some {u : Udp} (h : readUdp l = some u) :
    readIpv4 l = some u.ip ∧ u.ip.headerLength + u.length.toNat ≤ u.ip.totalLength ∧ 8 ≤ u.length.toNat ∧
      u.checksum = be16At l.payload (u.ip.headerLength + 6) ∧
      u.datagram = slice l.payload u.ip.headerLength u.length.toNat := by
  unfold readUdp at h
  cases hip : readIpv4 l with
  | none => rw [hip] at h; cases h
  | some ip =>
    rw [hip] at h
    dsimp only at h
    split at h
    · next hvalid =>
      obtain ⟨-, -, hheader, hshort, hlength⟩ := hvalid
      cases h
      exact ⟨rfl, by dsimp only; omega, hshort, rfl, rfl⟩
    · cases h

/-- The UDP layer of a frame that agrees with another up to its checksum. -/
theorem readUdp_of_take {u : Udp} (hu : readUdp (readLayers f) = some u) (hlength : g.length = f.length)
    (h : g.take ((readLayers f).payloadStart + u.ip.headerLength + 6) =
      f.take ((readLayers f).payloadStart + u.ip.headerLength + 6)) :
    readUdp (readLayers g) = some { u with
      checksum := be16At g ((readLayers f).payloadStart + u.ip.headerLength + 6)
      datagram := slice g ((readLayers f).payloadStart + u.ip.headerLength) u.length.toNat } := by
  obtain ⟨hip, -⟩ := readUdp_eq_some hu
  obtain ⟨hheader, -⟩ := readIpv4_eq_some hip
  have hstart : 14 ≤ (readLayers f).payloadStart := by
    unfold readLayers
    dsimp only
    split <;> omega
  have hpayload : (readLayers f).payload = f.drop (readLayers f).payloadStart := rfl
  rw [readLayers_of_take h (by omega)]
  generalize readLayers f = l at *
  have htake : (g.drop l.payloadStart).take (u.ip.headerLength + 6) = l.payload.take (u.ip.headerLength + 6) := by
    rw [hpayload, List.take_drop, List.take_drop, ← Nat.add_assoc, h]
  have hsame : readIpv4 { l with payload := g.drop l.payloadStart } = some u.ip := by
    rw [readIpv4_of_take htake (by omega) (by rw [hpayload, List.length_drop, List.length_drop, hlength]), hip]
  unfold readUdp at hu ⊢
  rw [hsame]
  rw [hip] at hu
  dsimp only at hu ⊢
  rw [be16At_of_take (i := u.ip.headerLength) htake (by omega), be16At_of_take (i := u.ip.headerLength + 2) htake (by omega),
    be16At_of_take (i := u.ip.headerLength + 4) htake (by omega)]
  split at hu
  · next hvalid =>
    rw [if_pos hvalid]
    have hfields := Option.some.inj hu
    rw [← hfields, Nat.add_assoc l.payloadStart, be16At_drop g]
    simp only [slice, List.drop_drop]
  · cases hu

/-! ### The payload of a command in its frame (R20) -/

/-- A field of the protocol payload stands in the frame behind the start of the payload. -/
theorem slice_payload {o n : Nat} (hn : 0 < n) (h : o + n ≤ (protocolPayload p (readLayers f)).bytes.length) :
    (protocolPayload p (readLayers f)).start + o + n ≤ f.length ∧
      slice f ((protocolPayload p (readLayers f)).start + o) n = slice (protocolPayload p (readLayers f)).bytes o n := by
  have hpayload : (readLayers f).payload = f.drop (readLayers f).payloadStart := rfl
  unfold protocolPayload at h ⊢
  by_cases hkind : p.kind = 1
  · rw [if_pos hkind] at h ⊢
    cases hu : readUdp (readLayers f) with
    | none =>
      rw [hu] at h
      have : o + n ≤ 0 := h
      omega
    | some u =>
      rw [hu] at h
      obtain ⟨hip, hlength, hshort, -, hdatagram⟩ := readUdp_eq_some hu
      obtain ⟨-, htotal⟩ := readIpv4_eq_some hip
      dsimp only at h ⊢
      rw [hpayload, List.length_drop] at htotal
      rw [hdatagram, hpayload, slice] at h ⊢
      rw [List.length_drop, List.length_take, List.length_drop, List.length_drop] at h
      refine ⟨by omega, ?_⟩
      rw [slice, slice, List.drop_drop, List.drop_drop, List.drop_take, List.take_take, List.drop_drop,
        Nat.min_eq_left (by omega)]
      exact congrArg (fun k => (f.drop k).take n) (by omega)
  · rw [if_neg hkind] at h ⊢
    dsimp only at h ⊢
    rw [hpayload] at h ⊢
    rw [List.length_drop] at h
    refine ⟨by omega, ?_⟩
    rw [slice, slice, List.drop_drop]

theorem readValue_eq_some {payload : List Byte} {off : BitVec 16} {x : Int} (h : readValue p payload off vt = some x) :
    off.toNat + typeWidth vt ≤ payload.length ∧ x = decodeValue p vt (slice payload off.toNat (typeWidth vt)) := by
  unfold readValue fieldComplete at h
  split at h
  · next hfits =>
    cases h
    exact ⟨of_decide_eq_true hfits, rfl⟩
  · cases h

/-- A command's payload is that of its frame under its Profile. -/
theorem payload_of_command {b : Bank} {frame : List Byte} (h : commandOf b frame = some c) :
    c.payload = protocolPayload c.profile (readLayers (withoutFcs frame)) := by
  obtain ⟨slot, i, p, -, hparse⟩ := commandOf_eq_some h
  obtain ⟨code, -, -, -, rfl⟩ := parseCommand_eq_command hparse
  rfl

/-! ### The rewrite (R68, R69, R72) -/

/-- The frame with its Value field replaced. -/
def valued (c : Command) (f : List Byte) (vt : ValueType) (q : Int) : List Byte :=
  splice f (c.payload.start + c.profile.valueOffset.toNat) (encodeValue c.profile vt q)

/-- A command whose Value field lies in its frame. -/
structure HoldsValue (c : Command) (f : List Byte) (vt : ValueType) : Prop where
  payload : c.payload = protocolPayload c.profile (readLayers f)
  fits : c.profile.valueOffset.toNat + typeWidth vt ≤ c.payload.bytes.length

theorem HoldsValue.inFrame (h : HoldsValue c f vt) :
    c.payload.start + c.profile.valueOffset.toNat + typeWidth vt ≤ f.length := by
  have hfits := h.fits
  rw [h.payload] at hfits ⊢
  exact (slice_payload (typeWidth_pos vt) hfits).1

theorem HoldsValue.udp (h : HoldsValue c f vt) (hkind : c.profile.kind = 1) :
    ∃ u, readUdp (readLayers f) = some u ∧
      c.payload.start = (readLayers f).payloadStart + u.ip.headerLength + 8 := by
  have hfits := h.fits
  have hpos := typeWidth_pos vt
  rw [h.payload] at hfits ⊢
  unfold protocolPayload at hfits ⊢
  rw [if_pos hkind] at hfits ⊢
  cases hu : readUdp (readLayers f) with
  | none =>
    rw [hu] at hfits
    have : c.profile.valueOffset.toNat + typeWidth vt ≤ 0 := hfits
    omega
  | some u => exact ⟨u, rfl, rfl⟩

theorem HoldsValue.fieldFits (h : HoldsValue c f vt) (q : Int) :
    c.payload.start + c.profile.valueOffset.toNat + (encodeValue c.profile vt q).length ≤ f.length := by
  rw [encodeValue_length]
  exact h.inFrame

/-- The Value field stands behind the UDP header, so that its rewrite leaves the layers. -/
theorem readUdp_valued {u : Udp} (h : HoldsValue c f vt) (q : Int) (hu : readUdp (readLayers f) = some u)
    (hstart : c.payload.start = (readLayers f).payloadStart + u.ip.headerLength + 8) :
    readUdp (readLayers (valued c f vt q)) = some { u with
      datagram := slice (valued c f vt q) ((readLayers f).payloadStart + u.ip.headerLength) u.length.toNat } := by
  have hfits := h.fieldFits q
  have hchecksum : be16At (valued c f vt q) ((readLayers f).payloadStart + u.ip.headerLength + 6) = u.checksum := by
    obtain ⟨-, -, -, hchecksum, -⟩ := readUdp_eq_some hu
    have hpayload : (readLayers f).payload = f.drop (readLayers f).payloadStart := rfl
    rw [hchecksum, hpayload, ← be16At_drop, ← Nat.add_assoc]
    exact be16At_of_take (take_splice hfits le_rfl) (by omega)
  rw [readUdp_of_take (g := valued c f vt q) hu (splice_length _ _ _) (take_splice hfits (by omega)), hchecksum]

/-- A rewrite: the Value field alone, or for a received checksum other than 0000H the checksum as well. -/
theorem rewriteFrame_cases (h : HoldsValue c f vt) (q : Int) :
    (rewriteFrame c f vt q = valued c f vt q ∧
      (c.profile.kind = 1 → ∃ u w, readUdp (readLayers f) = some u ∧ readUdp (readLayers (valued c f vt q)) = some w ∧
        u.checksum = 0 ∧ w.checksum = 0)) ∨
    (c.profile.kind = 1 ∧ ∃ u, readUdp (readLayers f) = some u ∧ u.checksum ≠ 0 ∧
      c.payload.start = (readLayers f).payloadStart + u.ip.headerLength + 8 ∧
      rewriteFrame c f vt q = splice (valued c f vt q) ((readLayers f).payloadStart + u.ip.headerLength + 6)
        (beBytes 2 (freshChecksum u.ip
          (slice (valued c f vt q) ((readLayers f).payloadStart + u.ip.headerLength) u.length.toNat)))) := by
  by_cases hkind : c.profile.kind = 1
  · obtain ⟨u, hu, hstart⟩ := h.udp hkind
    have hvalued := readUdp_valued h q hu hstart
    have hrewrite : rewriteFrame c f vt q =
        if u.checksum = 0 then valued c f vt q
        else splice (valued c f vt q) (c.payload.start - 2) (beBytes 2 (freshChecksum u.ip
          (slice (valued c f vt q) ((readLayers f).payloadStart + u.ip.headerLength) u.length.toNat))) := by
      rw [valued] at hvalued ⊢
      rw [rewriteFrame, if_pos hkind, hvalued]
    by_cases hzero : u.checksum = 0
    · rw [if_pos hzero] at hrewrite
      exact .inl ⟨hrewrite, fun _ => ⟨u, _, hu, hvalued, hzero, hzero⟩⟩
    · rw [if_neg hzero, hstart] at hrewrite
      exact .inr ⟨hkind, u, hu, hzero, hstart, hrewrite⟩
  · refine .inl ⟨?_, fun hk => absurd hk hkind⟩
    rw [rewriteFrame, if_neg hkind]
    rfl

theorem rewriteFrame_length (c : Command) (f : List Byte) (vt : ValueType) (q : Int) :
    (rewriteFrame c f vt q).length = f.length := by
  unfold rewriteFrame
  dsimp only
  split
  · rw [splice_length]
  · split
    · rw [splice_length]
    · rw [splice_length, splice_length]

theorem drop_splice_after {new : List Byte} {a n : Nat} (h : a + new.length ≤ f.length) (hn : a + new.length ≤ n) :
    (splice f a new).drop n = f.drop n := by
  have htake : (f.take a).length = a := by rw [List.length_take]; omega
  rw [splice_eq h, List.drop_append, htake, List.drop_of_length_le (by omega), List.nil_append, List.drop_append,
    List.drop_of_length_le (by omega), List.nil_append, List.drop_drop]
  exact congrArg (fun k => f.drop k) (by omega)

/-- The Value field of a rewritten frame holds the admissible value (R68). -/
theorem slice_rewriteFrame (h : HoldsValue c f vt) (q : Int) :
    slice (rewriteFrame c f vt q) (c.payload.start + c.profile.valueOffset.toNat) (typeWidth vt) =
      encodeValue c.profile vt q := by
  have hfits := h.fieldFits q
  have hvalued : slice (valued c f vt q) (c.payload.start + c.profile.valueOffset.toNat) (typeWidth vt) =
      encodeValue c.profile vt q := by
    rw [← encodeValue_length c.profile vt q]
    exact slice_splice _ _ _ hfits
  rcases rewriteFrame_cases h q with ⟨hrewrite, -⟩ | ⟨-, u, -, -, hstart, hrewrite⟩
  · rw [hrewrite, hvalued]
  · have hlength : (valued c f vt q).length = f.length := splice_length _ _ _
    rw [hrewrite, slice, drop_splice_after (by rw [beBytes_length]; omega) (by rw [beBytes_length]; omega)]
    exact hvalued

/-- The bytes that a rewrite leaves (R69). -/
theorem byteAt_rewriteFrame (h : HoldsValue c f vt) (q : Int) {k : Nat}
    (hk : k < c.payload.start + c.profile.valueOffset.toNat ∨
      c.payload.start + c.profile.valueOffset.toNat + typeWidth vt ≤ k)
    (hchecksum : ¬ (c.profile.kind = 1 ∧ (∃ u, readUdp (readLayers f) = some u ∧ u.checksum ≠ 0) ∧
      c.payload.start ≤ k + 2 ∧ k < c.payload.start)) : byteAt (rewriteFrame c f vt q) k = byteAt f k := by
  have hfits := h.fieldFits q
  have hvalued : byteAt (valued c f vt q) k = byteAt f k :=
    byteAt_splice _ _ _ hfits _ (by rw [encodeValue_length]; exact hk)
  rcases rewriteFrame_cases h q with ⟨hrewrite, -⟩ | ⟨hkind, u, hu, hzero, hstart, hrewrite⟩
  · rw [hrewrite, hvalued]
  · have hlength : (valued c f vt q).length = f.length := splice_length _ _ _
    have hplace : ¬ (c.payload.start ≤ k + 2 ∧ k < c.payload.start) := fun hplace =>
      hchecksum ⟨hkind, ⟨u, hu, hzero⟩, hplace⟩
    rw [hrewrite, byteAt_splice _ _ _ (by rw [beBytes_length]; omega) _ (by rw [beBytes_length]; omega), hvalued]

/-- The UDP layer of a rewritten frame, its checksum computed afresh or 0000H as received (R72). -/
theorem readUdp_rewriteFrame (h : HoldsValue c f vt) (q : Int) (hkind : c.profile.kind = 1) :
    ∃ u w, readUdp (readLayers f) = some u ∧ readUdp (readLayers (rewriteFrame c f vt q)) = some w ∧
      (u.checksum = 0 → w.checksum = 0) ∧ (u.checksum ≠ 0 → w.checksum ≠ 0 ∧ Sound w) := by
  have hfits := h.fieldFits q
  rcases rewriteFrame_cases h q with ⟨hrewrite, hudp⟩ | ⟨-, u, hu, hzero, hstart, hrewrite⟩
  · obtain ⟨u, w, hu, hw, hzero, hzero'⟩ := hudp hkind
    rw [hrewrite]
    exact ⟨u, w, hu, hw, fun _ => hzero', fun hne => absurd hzero hne⟩
  · obtain ⟨hip, hlength, hshort, -, -⟩ := readUdp_eq_some hu
    obtain ⟨hheader, htotal⟩ := readIpv4_eq_some hip
    have hpayload : (readLayers f).payload.length = f.length - (readLayers f).payloadStart := List.length_drop
    have hsame : (valued c f vt q).length = f.length := splice_length _ _ _
    set a := (readLayers f).payloadStart + u.ip.headerLength with ha
    set datagram := slice (valued c f vt q) a u.length.toNat with hdatagram
    set fresh := freshChecksum u.ip datagram with hfresh
    obtain ⟨hpos, hle⟩ := freshChecksum_range u.ip datagram
    have hdatagramLength : datagram.length = u.length.toNat := slice_length (by omega)
    have htake : (rewriteFrame c f vt q).take (a + 6) = f.take (a + 6) := by
      rw [hrewrite, take_splice (by rw [beBytes_length]; omega) le_rfl]
      exact take_splice hfits (by omega)
    have hchecksum : be16At (rewriteFrame c f vt q) (a + 6) = BitVec.ofNat 16 fresh := by
      rw [hrewrite]
      refine be16At_of_slice ?_
      have hslice := slice_splice (valued c f vt q) (a + 6) (beBytes 2 fresh) (by rw [beBytes_length]; omega)
      rwa [beBytes_length] at hslice
    have hnew : slice (rewriteFrame c f vt q) a u.length.toNat = splice datagram 6 (beBytes 2 fresh) := by
      rw [hrewrite]
      exact slice_splice_inside (by rw [beBytes_length]; omega) (by omega)
    refine ⟨u, _, hu, readUdp_of_take hu (rewriteFrame_length c f vt q) htake, fun hz => absurd hz hzero, fun _ => ⟨?_, ?_⟩⟩
    · rw [hchecksum]
      intro hz
      have := congrArg BitVec.toNat hz
      rw [BitVec.toNat_ofNat, Nat.mod_eq_of_lt (by omega)] at this
      have hzeroNat : (0 : BitVec 16).toNat = 0 := rfl
      omega
    · have hsound := freshChecksum_sound u.ip (datagram := datagram) (by omega)
      rw [hdatagramLength, ← hfresh, ← hnew] at hsound
      exact hsound

theorem checksumFails_iff : checksumFails s c l = true ↔
    s.mode = .enforce ∧ c.profile.kind = 1 ∧ ∃ u, readUdp l = some u ∧ u.checksum ≠ 0 ∧ ¬ Sound u := by
  unfold checksumFails
  rw [Bool.and_eq_true, Bool.and_eq_true, beq_iff_eq, beq_iff_eq, and_assoc]
  refine and_congr_right fun _ => and_congr_right fun _ => ?_
  cases hu : readUdp l with
  | none => exact iff_of_false Bool.false_ne_true fun ⟨u, h, _⟩ => Option.some_ne_none u h.symm
  | some u =>
    obtain ⟨hip, hlength, -, -, hdatagram⟩ := readUdp_eq_some hu
    obtain ⟨-, htotal⟩ := readIpv4_eq_some hip
    have hcheck := checksumPasses_iff (u := u) (by rw [hdatagram]; exact slice_length (by omega))
    dsimp only
    rw [Bool.and_eq_true, bne_iff_ne, Bool.not_eq_true', ← Bool.not_eq_true, hcheck]
    exact ⟨fun h => ⟨u, rfl, h⟩, fun ⟨w, hw, h⟩ => Option.some.inj hw ▸ h⟩

/-! ### What leaves the part under a BOUND rule (R61 to R68) -/

theorem admissible_of_permit {r : BoundRule} {reference : Option Int} {x : Int} (h : boundOutcome r reference x = .permit) :
    admissible r reference x = some x := by
  unfold boundOutcome at h
  split at h
  · cases h
  · next q hq =>
    split at h
    · next hsame => rw [hq, hsame]
    · split at h <;> cases h

theorem admissible_of_clamp {r : BoundRule} {reference : Option Int} {x q : Int}
    (h : boundOutcome r reference x = .clamp q) : admissible r reference x = some q := by
  unfold boundOutcome at h
  split at h
  · cases h
  · next y hy =>
    split at h
    · cases h
    · split at h
      · cases h
      · cases h
        exact hy

theorem length_of_formatOk {frame : List Byte} (h : formatOk frame = true) : 64 ≤ frame.length := by
  rw [formatOk, Bool.and_eq_true, Bool.and_eq_true] at h
  exact of_decide_eq_true h.2.1

/-- The frame that a command leaves as: rewritten for a clamp, else as it came (R51). -/
def sentFrame (c : Command) (frame : List Byte) (a : Action) : List Byte :=
  match a.value, a.clampTo with
  | some (t, _), some q => withFcs (rewriteFrame c (withoutFcs frame) t q)
  | _, _ => frame

theorem placeDecided_cell (s : State) (frame : List Byte) (rule : Option (Fin 256)) (a : Action) :
    (placeDecided s c frame rule a).cell = placeForward s.cell (sentFrame c frame a) := by
  unfold placeDecided sentFrame
  cases a.value with
  | none => rfl
  | some y =>
    cases a.clampTo with
    | none => rfl
    | some q => exact congrArg (fun cell => placeForward cell _) (record_cell s (clampRecord s c rule y.2 q))

theorem applyPass_cell (s : State) (c : Command) (pass : Option (Fin 4 × LoadChange)) :
    (applyPass s c pass).cell = s.cell := by
  cases pass with
  | none => rfl
  | some x =>
    obtain ⟨v, h⟩ := applyLoadChange_eq s c x.1 x.2
    obtain ⟨e, o, hrecords⟩ := addRecords_frame { s with loads := v } (changeRecords s c x.1 x.2)
    rw [applyPass, h, hrecords]

theorem admissible_in_band {r : BoundRule} {reference : Option Int} {x q : Int} (h : admissible r reference x = some q) :
    r.low ≤ q ∧ q ≤ r.high ∧
      ∀ ref, reference = some ref → 0 < r.step → ref - r.step ≤ q ∧ q ≤ ref + r.step := by
  obtain ⟨⟨-, -, hlow, hhigh⟩, -, hstep, -⟩ := (boundGivesTheNearestGridPoint r reference x _ _ rfl).1 q h
  exact ⟨hlow, hhigh, hstep⟩

/-- Settles O26. -/
theorem enforcedWritesStayInTheBand : Obligations.EnforcedWritesStayInTheBand := by
  refine ⟨fun b frame f g c vt v q hc hv hmin hmax hf hg => ?_, fun s c l => checksumFails_iff,
    fun dt frame s t c k vt henforce h hc hrule haction hheld htype hlow hhigh ht => ?_⟩
  · subst hf hg
    have hholds : HoldsValue c (withoutFcs frame) vt := ⟨payload_of_command hc, (readValue_eq_some hv).1⟩
    refine ⟨rewriteFrame_length _ _ _ _, ?_, fun k => byteAt_rewriteFrame hholds q, readUdp_rewriteFrame hholds q⟩
    rw [slice_rewriteFrame hholds, decodeValue_encodeValue _ hmin hmax]
  · rw [exec_command henforce h hc] at ht
    generalize s.elapse dt = u at *
    obtain rfl := Host.Outcome.next.inj ht
    rcases enforceCommand_cases (countReceived u .net) c (readLayers (withoutFcs frame)) frame with
      hcell | ⟨a, pass, ha, hending, -, hplaced⟩
    · refine .inl ⟨?_, ?_⟩ <;> rw [noticeAfter_cell, hcell] <;> rfl
    · have hbound : UnderBound (countReceived u .net) c k vt := ⟨hrule, haction, hheld, htype⟩
      obtain ⟨o, ho⟩ := trackStep_frame (countReceived u .net) c a (pass.map (·.1))
      have hcell : (noticeAfter u (enforceCommand (countReceived u .net) c (readLayers (withoutFcs frame)) frame)).cell =
          placeForward u.cell (sentFrame c frame a) := by
        rw [noticeAfter_cell, hplaced, placeDecided_cell, applyPass_cell, ho]
        rfl
      cases hv : readValue c.profile c.payload.bytes c.profile.valueOffset vt with
      | none =>
        rw [← ha, actionStep_of_short hbound hv] at hending
        cases hending
      | some x =>
        obtain ⟨hfits, hx⟩ := readValue_eq_some hv
        have hholds : HoldsValue c (withoutFcs frame) vt := ⟨payload_of_command hc, hfits⟩
        rw [actionStep_of_value hbound hv] at ha
        refine .inr ?_
        rw [hcell]
        cases houtcome : outcomeOf (countReceived u .net) c k vt x with
        | permit =>
          rw [houtcome] at ha
          obtain ⟨hlowx, hhighx, hstep⟩ := admissible_in_band (admissible_of_permit houtcome)
          refine ⟨frame, x, by rw [← ha]; rfl, rfl, ?_, hlowx, hhighx, hstep⟩
          rw [hholds.payload] at hfits
          rw [hx, hholds.payload, (slice_payload (typeWidth_pos vt) hfits).2]
        | clamp q =>
          rw [houtcome, actionOf] at ha
          obtain ⟨hlowq, hhighq, hstep⟩ := admissible_in_band (admissible_of_clamp houtcome)
          split at ha
          · rw [← ha] at hending
            cases hending
          · refine ⟨withFcs (rewriteFrame c (withoutFcs frame) vt q), q, by rw [← ha]; rfl, ?_, ?_, hlowq, hhighq,
              hstep⟩
            · have hlong := length_of_formatOk h.2.1
              rw [withFcs, List.length_append, rewriteFrame_length, withoutFcs, List.length_take, fcsBytes, leBytes,
                List.length_reverse, beBytes_length]
              omega
            · rw [withoutFcs_withFcs, slice_rewriteFrame hholds,
                decodeValue_encodeValue _ (hlow.trans hlowq) (hhighq.trans hhigh)]
        | outOfBand =>
          rw [houtcome] at ha
          rw [← ha] at hending
          cases hending
        | noAdmissible =>
          rw [houtcome] at ha
          rw [← ha] at hending
          cases hending

end Sys2Proof.Proofs.Rewrites
end

section
/-! The device mode takes no part in the passing of time: an expiry in one mode is the same expiry in the other. This is
what lets a frame's fate be compared in both modes (O18). -/

namespace Sys2Proof.Proofs.ModeBlind

open Sys2Proof Sys2Proof.Machine Sys2Proof.Claims Sys2Proof.Laws Sys2Proof.Proofs Sys2Proof.Proofs.Changes

/-- The device mode replaced. -/
def withMode (s : State) (m : Mode) : State := { s with mode := m }

/-- An operation that neither reads nor changes the mode. -/
def Blind (f : State → State) : Prop := ∀ s m, f (withMode s m) = withMode (f s) m

theorem Blind.foldl {α : Type} {f : State → α → State} (h : ∀ a, Blind (fun s => f s a)) (l : List α) :
    Blind (fun s => l.foldl f s) := fun s m => by
  induction l generalizing s with
  | nil => rfl
  | cons a rest ih =>
    dsimp only at ih
    dsimp only
    rw [List.foldl_cons, List.foldl_cons, ← ih]
    exact congrArg (rest.foldl f) (h a s m)

theorem record_withMode (s : State) (m : Mode) (e : EventRecord) : (withMode s m).record e = withMode (s.record e) m := by
  unfold State.record withMode
  split <;> rfl

theorem abortLoad_blind (d : Fin 4) (reason : Reason) : Blind (fun s => abortLoad s d reason) := fun s m => by
  have hloads : (withMode s m).loads = s.loads := rfl
  dsimp only [abortLoad]
  rw [hloads]
  cases s.loads[d] with
  | none => rfl
  | some r => exact record_withMode (s.setLoad d none) m _

theorem abortForWindow_blind (slot : Fin 16) : Blind (fun s => abortForWindow s slot) := fun s m => by
  have hloads : (withMode s m).loads = s.loads := rfl
  have hfound : loadOf (withMode s m) slot = loadOf s slot := rfl
  dsimp only [abortForWindow]
  rw [hloads, hfound]
  cases loadOf s slot with
  | none => rfl
  | some d =>
    dsimp only
    cases s.loads[d] with
    | none => rfl
    | some r =>
      dsimp only
      split
      · exact abortLoad_blind d .window s m
      · rfl

theorem withGuardState_blind (i : Fin 16) (g : GuardState) : Blind (fun s => withGuardState s i g) := fun s m => by
  have hguards : (withMode s m).guards = s.guards := rfl
  dsimp only [withGuardState]
  rw [hguards]
  cases s.guards[i] <;> rfl

theorem closeWindow_blind (i : Fin 16) (reason : Reason) (source : Option MacAddress) :
    Blind (fun s => closeWindow s i reason source) := fun s m => by
  have hwindow : inWindow (withMode s m) i = inWindow s i := rfl
  dsimp only [closeWindow]
  rw [hwindow]
  split
  · have hclosed : withGuardState (withMode s m) i .normal = withMode (withGuardState s i .normal) m :=
      withGuardState_blind i .normal s m
    have hclock : (withMode s m).clock = s.clock := rfl
    rw [hclosed, hclock, record_withMode]
    split
    · rfl
    · exact abortForWindow_blind i _ m
  · rfl

theorem closeWindows_blind (l : List (Fin 16)) (reason : Reason) (source : Option MacAddress) :
    Blind (fun s => closeWindows s l reason source) :=
  .foldl (fun i => closeWindow_blind i reason source) l

theorem windowExpire_blind (i : Fin 16) : Blind (fun s => windowExpire s i) := fun s m => by
  have hguard : guardOf (withMode s m) i = guardOf s i := rfl
  dsimp only [windowExpire]
  rw [hguard]
  split
  · have hclock : (withMode s m).clock = s.clock := rfl
    rw [hclock]
    split
    · exact closeWindow_blind i .expired none s m
    · rfl
  all_goals rfl

theorem permitExpire_blind : Blind permitExpire := fun s m => by
  have hperiod : (withMode s m).permitPeriod = s.permitPeriod ∧ (withMode s m).clock = s.clock ∧
      (withMode s m).chgPermit = s.chgPermit := ⟨rfl, rfl, rfl⟩
  unfold permitExpire
  rw [hperiod.1, hperiod.2.1, hperiod.2.2]
  cases s.permitPeriod with
  | none => rfl
  | some t =>
    dsimp only
    split
    · split
      · rfl
      · exact closeWindows_blind allSlots .permit none { s with permit := s.chgPermit, permitPeriod := none } m
    · rfl

/-- ALERT asserted. -/
theorem alert_withMode (s : State) (m : Mode) : { withMode s m with alert := true } = withMode { s with alert := true } m :=
  rfl

theorem freezeSlot_blind (i : Fin 16) (average : Nat) : Blind (fun s => freezeSlot s i average) := fun s m => by
  have hclosed : closeWindow (withMode s m) i .frozen none = withMode (closeWindow s i .frozen none) m :=
    closeWindow_blind i .frozen none s m
  have hfrozen : withGuardState (withMode (closeWindow s i .frozen none) m) i .frozen =
      withMode (withGuardState (closeWindow s i .frozen none) i .frozen) m := withGuardState_blind i .frozen _ m
  have hclock : ∀ v : State, (withMode v m).clock = v.clock := fun _ => rfl
  dsimp only [freezeSlot]
  rw [hclosed, hfrozen, hclock, record_withMode, alert_withMode]

theorem scoreSlot_blind (i : Fin 16) : Blind (fun s => scoreSlot s i) := fun s m => by
  have hread : (withMode s m).guards = s.guards ∧ (withMode s m).activeBank = s.activeBank := ⟨rfl, rfl⟩
  dsimp only [scoreSlot]
  rw [hread.1, hread.2]
  cases s.guards[i] with
  | none => rfl
  | some g =>
    dsimp only
    split
    · rfl
    · split
      · exact freezeSlot_blind i _ (s.setGuard i _) m
      · rfl

theorem intervalExpire_blind : Blind intervalExpire := fun s m => by
  have hread : (withMode s m).intervalNext = s.intervalNext ∧ (withMode s m).clock = s.clock ∧
      (withMode s m).activeBank = s.activeBank := ⟨rfl, rfl, rfl⟩
  have hscores := Blind.foldl scoreSlot_blind (usedSlots s.activeBank) s m
  dsimp only at hscores
  unfold intervalExpire
  rw [hread.1, hread.2.1, hread.2.2]
  cases s.intervalNext with
  | none => rfl
  | some t =>
    dsimp only
    split
    · rw [hscores]
      rfl
    · rfl

theorem applyReport_blind (slot : Fin 16) (d : Fin 4) (kind : EntryKind) (positive : Bool) :
    Blind (fun s => applyReport s slot d kind positive) := fun s m => by
  have hloads : (withMode s m).loads = s.loads := rfl
  dsimp only [applyReport]
  rw [hloads]
  cases s.loads[d] with
  | none => rfl
  | some r =>
    by_cases hslot : r.controller ≠ slot
    · simp only [if_pos hslot]
    · simp only [if_neg hslot]
      cases kind <;> cases r.state
      case begin.loading =>
        cases positive
        · exact abortLoad_blind d _ s m
        · rfl
      case segment.loading =>
        cases positive
        · simp only [Bool.false_eq_true, ↓reduceIte]
          generalize (⟨r.retryAllowance.val - 1, _⟩ : Fin 4) = left
          by_cases hleft : left = 0
          · simp only [if_pos hleft]
            exact abortLoad_blind d _ (s.setLoad d _) m
          · simp only [if_neg hleft]
            rfl
        · rfl
      case activate.activating => exact record_withMode (s.setLoad d none) m _
      all_goals rfl

theorem responseExpire_blind (slot : Fin 16) (tag : BitVec 32) : Blind (fun s => responseExpire s slot tag) := fun s m => by
  have hread : findEntry (withMode s m) slot tag = findEntry s slot tag ∧ (withMode s m).clock = s.clock ∧
      removeEntry (withMode s m) slot tag = withMode (removeEntry s slot tag) m := ⟨rfl, rfl, rfl⟩
  dsimp only [responseExpire]
  rw [hread.1, hread.2.1, hread.2.2]
  cases findEntry s slot tag with
  | none => rfl
  | some e =>
    dsimp only
    split
    · rw [record_withMode]
      cases e.kind <;> cases e.downloadSlot
      case begin.some d => exact applyReport_blind slot d _ _ _ m
      case segment.some d => exact applyReport_blind slot d _ _ _ m
      case activate.some d => exact applyReport_blind slot d _ _ _ m
      all_goals rfl
    · rfl

theorem idleExpire_blind (d : Fin 4) : Blind (fun s => idleExpire s d) := fun s m => by
  have hread : (withMode s m).loads = s.loads ∧ (withMode s m).clock = s.clock := ⟨rfl, rfl⟩
  dsimp only [idleExpire]
  rw [hread.1, hread.2]
  cases s.loads[d] with
  | none => rfl
  | some r =>
    dsimp only
    split
    · exact abortLoad_blind d .idle s m
    · rfl

theorem lockoutExpire_blind : Blind lockoutExpire := fun s m => by
  have hread : (withMode s m).lockoutEnd = s.lockoutEnd ∧ (withMode s m).clock = s.clock := ⟨rfl, rfl⟩
  unfold lockoutExpire
  rw [hread.1, hread.2]
  cases s.lockoutEnd with
  | none => rfl
  | some t =>
    dsimp only
    split <;> rfl

theorem saveExpire_blind : Blind saveExpire := fun s m => by
  have hread : (withMode s m).save = s.save ∧ (withMode s m).clock = s.clock := ⟨rfl, rfl⟩
  unfold saveExpire
  rw [hread.1, hread.2]
  cases s.save with
  | none => rfl
  | some run =>
    have hrecord : saveRecord (withMode s m) .saveFailed run = saveRecord s .saveFailed run := rfl
    dsimp only
    split
    · rw [hrecord, record_withMode]
      rfl
    · rfl

theorem expiry_blind (t : Timer) : Blind (expiry t) := by
  cases t with
  | permit => exact permitExpire_blind
  | window i => exact windowExpire_blind i
  | interval => exact intervalExpire_blind
  | response slot tag => exact responseExpire_blind slot tag
  | idle d => exact idleExpire_blind d
  | lockout => exact lockoutExpire_blind
  | save => exact saveExpire_blind

theorem noticeAfter_withMode (u w : State) (m : Mode) :
    noticeAfter (withMode u m) (withMode w m) = withMode (noticeAfter u w) m := by
  have hread : (withMode u m).events = u.events ∧ (withMode w m).events = w.events ∧
      (withMode w m).settings = w.settings := ⟨rfl, rfl, rfl⟩
  unfold noticeAfter
  rw [hread.1, hread.2.1, hread.2.2]
  split
  · have hnet : (withMode w m).net = w.net := rfl
    unfold offerNotice
    rw [hnet]
    split
    · rfl
    · split <;> rfl
  · rfl

theorem expire_blind (t : Timer) : Blind (expire t) := fun s m => by
  rw [expire_eq, expire_eq, expiry_blind t s m, noticeAfter_withMode]

theorem takeDeadlines_blind (limit n : Nat) : Blind (takeDeadlines limit n) := fun s m => by
  induction n generalizing s with
  | zero => rfl
  | succ n ih =>
    have hread : deadlines (withMode s m) = deadlines s ∧ (withMode s m).clock = s.clock := ⟨rfl, rfl⟩
    unfold takeDeadlines
    rw [hread.1, hread.2]
    cases earliest (deadlines s) with
    | none => rfl
    | some x =>
      obtain ⟨t, timer⟩ := x
      dsimp only
      split
      · rw [← ih, ← expire_blind timer]
        rfl
      · rfl

/-- Time passes alike in both modes. -/
theorem elapse_withMode (s : State) (m : Mode) (n : Nat) : (withMode s m).elapse n = withMode (s.elapse n) m := by
  have hread : (withMode s m).resetN = s.resetN ∧ (withMode s m).clock = s.clock ∧
      (withMode s m).outstanding = s.outstanding := ⟨rfl, rfl, rfl⟩
  unfold State.elapse
  rw [hread.1, hread.2.1, hread.2.2]
  split
  · dsimp only
    rw [takeDeadlines_blind]
    rfl
  · rfl

end Sys2Proof.Proofs.ModeBlind
end

section
/-! PASSIVE beside ENFORCE: what a frame notes in PASSIVE, what its decision records in ENFORCE, and how they mirror each
other (O18). -/

namespace Sys2Proof.Proofs.Mirrors

open Sys2Proof Sys2Proof.Machine Sys2Proof.Claims Sys2Proof.Laws Sys2Proof.Proofs Sys2Proof.Proofs.Expiries
open Sys2Proof.Proofs.Consistency Sys2Proof.Proofs.Downstream Sys2Proof.Proofs.Kinds Sys2Proof.Proofs.Placement
open Sys2Proof.Proofs.LoadChecks Sys2Proof.Proofs.ModeBlind Sys2Proof.Proofs.ResetAndSave

variable {s u w x : State} {c : Command} {l : Layers} {frame : List Byte} {a : Action} {rule : Option (Fin 256)}
  {d : Option (Fin 4)} {b : Bank} {re rp : List EventRecord}

/-! ### Records noted on the way -/

/-- Records fill the Event Queue up to its 64 places (R159). -/
theorem addRecords_events (s : State) (recs : List EventRecord) :
    (addRecords s recs).events = s.events ++ recs.take (64 - s.events.length) := by
  induction recs generalizing s with
  | nil => rw [addRecords_nil, List.take_nil, List.append_nil]
  | cons e rest ih =>
    rw [addRecords_cons, ih]
    by_cases hroom : s.events.length < 64
    · have hevents : (s.record e).events = s.events ++ [e] := by rw [State.record, if_pos hroom]
      obtain ⟨n, hn⟩ : ∃ n, 64 - s.events.length = n + 1 := ⟨63 - s.events.length, by omega⟩
      rw [hevents, List.length_append, List.length_singleton, hn, List.take_succ_cons, List.append_assoc,
        List.singleton_append]
      exact congrArg (fun k => s.events ++ e :: rest.take k) (by omega)
    · have hevents : (s.record e).events = s.events := by rw [State.record, if_neg hroom]
      have hfull : 64 - s.events.length = 0 := by omega
      rw [hevents, hfull, List.take_zero, List.take_zero]

/-- The tables that a decision works on. -/
def work (s : State) (o : List Outstanding) (v : Vector (Option Download) 4) : State :=
  { s with outstanding := o, loads := v }

theorem work_addRecords (s : State) (recs : List EventRecord) (o : List Outstanding) (v : Vector (Option Download) 4) :
    work (addRecords s recs) o v = addRecords (work s o v) recs := by
  induction recs generalizing s with
  | nil => rfl
  | cons e rest ih =>
    have hrecord : work (s.record e) o v = (work s o v).record e := by
      unfold State.record work
      split <;> rfl
    rw [addRecords_cons, ih, hrecord, addRecords_cons]

/-- One state is another with records noted and its tables worked on. -/
def Noted (s w : State) (recs : List EventRecord) : Prop := ∃ o v, w = addRecords (work s o v) recs

theorem Noted.refl (s : State) : Noted s s [] := ⟨s.outstanding, s.loads, rfl⟩

theorem noted_records (s : State) (recs : List EventRecord) : Noted s (addRecords s recs) recs :=
  ⟨s.outstanding, s.loads, rfl⟩

theorem Noted.trans {r₁ r₂ : List EventRecord} (h : Noted s w r₁) (h' : Noted w x r₂) : Noted s x (r₁ ++ r₂) := by
  obtain ⟨o, v, rfl⟩ := h
  obtain ⟨o', v', rfl⟩ := h'
  refine ⟨o', v', ?_⟩
  rw [work_addRecords, addRecords_append]
  rfl

theorem Noted.shape (h : Noted s w re) :
    ∃ o v e f, w = { s with outstanding := o, loads := v, events := e, overflow := f } := by
  obtain ⟨o, v, rfl⟩ := h
  obtain ⟨e, f, hf⟩ := addRecords_frame (work s o v) re
  exact ⟨o, v, e, f, hf⟩

theorem Noted.events (h : Noted s w re) : w.events = (addRecords s re).events := by
  obtain ⟨o, v, rfl⟩ := h
  rw [addRecords_events, addRecords_events]
  rfl

/-! ### Steps of a decision in PASSIVE -/

/-- The records that an ending is noted as (R52). -/
def notes (s : State) (c : Command) (object : Option (BitVec 32)) (e : Option Ending) : List EventRecord :=
  (e.map (fun e => passiveRecord (endingRecord s.clock (some c.slot) c.source object e))).toList

theorem noteEnding_eq (s : State) (c : Command) (object : Option (BitVec 32)) (e : Option Ending) :
    noteEnding s c.slot c.source object e = addRecords s (notes s c object e) := by
  cases e <;> rfl

/-- The record of a clamp in ENFORCE (R52). -/
def clampRecords (s : State) (c : Command) (rule : Option (Fin 256)) (a : Action) : List EventRecord :=
  match a.value, a.clampTo with
  | some (_, v), some q => [clampRecord s c rule v q]
  | _, _ => []

theorem noteClamp_eq (s : State) (c : Command) (rule : Option (Fin 256)) (a : Action) :
    noteClamp s c rule a = addRecords s ((clampRecords s c rule a).map passiveRecord) := by
  unfold noteClamp clampRecords
  cases a.value with
  | none => rfl
  | some y => cases a.clampTo <;> rfl

/-- The ending that a verdict comes to, if it is a refusal. -/
def verdictEnding (rule : Option (Fin 256)) : Option LoadVerdict → Option Ending
  | some (.refusal kind reason _ extra) => some (.load kind reason rule extra)
  | some (.pass _ _) => none
  | none => none

/-- The Download Slot of a pass. -/
def verdictSlot : Option LoadVerdict → Option (Fin 4)
  | some (.refusal _ _ _ _) => none
  | some (.pass d _) => some d
  | none => none

/-- The records of the changes of a pass. -/
def verdictRecords (s : State) (c : Command) : Option LoadVerdict → List EventRecord
  | some (.refusal _ _ _ _) => []
  | some (.pass d change) => changeRecords s c d change
  | none => []

theorem passiveLoad_eq (s : State) (c : Command) (rule : Option (Fin 256)) :
    ∃ w, passiveLoad s c rule = (w, verdictSlot (loadStep s c), verdictEnding rule (loadStep s c)) ∧
      w.outstanding = s.outstanding ∧
      Noted s w (notes s c none (verdictEnding rule (loadStep s c)) ++ verdictRecords s c (loadStep s c)) := by
  unfold passiveLoad
  cases loadStep s c with
  | none => exact ⟨s, rfl, rfl, .refl s⟩
  | some verdict =>
    cases verdict with
    | refusal kind reason freed extra =>
      refine ⟨_, rfl, ?_, ?_⟩
      · rw [noteEnding_eq]
        obtain ⟨e, f, h⟩ := addRecords_frame (applyRefusal s freed)
          (notes (applyRefusal s freed) c none (some (.load kind reason rule extra)))
        rw [h]
        cases freed <;> rfl
      · rw [noteEnding_eq]
        cases freed with
        | none => exact noted_records s _
        | some d => exact ⟨s.outstanding, s.loads.set d none, rfl⟩
    | pass d change =>
      obtain ⟨v, h⟩ := applyLoadChange_eq s c d change
      refine ⟨_, rfl, ?_, s.outstanding, v, h⟩
      obtain ⟨e, f, hf⟩ := addRecords_frame { s with loads := v } (changeRecords s c d change)
      rw [h, hf]

theorem hasRoom_congr (h : w.outstanding = s.outstanding) (slot : Fin 16) (tag : BitVec 32) :
    hasRoom w slot tag = hasRoom s slot tag := by
  rw [hasRoom, hasRoom, findEntry, findEntry, h]

/-- Whether a command meets TRACK_FULL is a matter of the table and the policy alone. -/
theorem trackStep_full_congr (h : w.outstanding = s.outstanding) (hbank : w.activeBank = s.activeBank) :
    (trackStep w c a d).2 = (trackStep s c a d).2 := by
  have hroom := hasRoom_congr h c.slot
  unfold trackStep trackRequest
  rw [hbank]
  cases entryKindOf c.cls with
  | none => rfl
  | some kind =>
    cases c.tag with
    | none => cases kind <;> rfl
    | some tag =>
      cases kind
      case read =>
        dsimp only
        cases coverage s.activeBank c with
        | none => rfl
        | some t =>
          dsimp only
          rw [hroom]
          split <;> rfl
      all_goals
        dsimp only
        rw [hroom]
        split <;> rfl

theorem trackStep_noted (s : State) (c : Command) (a : Action) (d : Option (Fin 4)) :
    Noted s (trackStep s c a d).1 [] := by
  obtain ⟨o, h⟩ := trackStep_frame s c a d
  exact ⟨o, s.loads, h⟩

/-- The ending of a command without room for its entry. -/
def fullEnding (s : State) (c : Command) (a : Action) (rule : Option (Fin 256)) (d : Option (Fin 4)) : Option Ending :=
  if (trackStep s c a d).2 then some (trackFullEnding s a rule) else none

theorem fullEnding_congr (h : w.outstanding = s.outstanding) (hbank : w.activeBank = s.activeBank)
    (hmode : w.mode = s.mode) : fullEnding w c a rule d = fullEnding s c a rule d := by
  rw [fullEnding, fullEnding, trackStep_full_congr h hbank, trackFullEnding, trackFullEnding, forwardedValue,
    forwardedValue, hmode]

theorem passiveRest_eq (s : State) (c : Command) (frame : List Byte) (rule : Option (Fin 256)) (a : Action)
    (frozen : Option Ending) :
    ∃ w, passiveRest s c frame rule a frozen =
        forwardFrame (countDecision w c.slot (passiveDecision
          [frozen, a.ending, verdictEnding rule (loadStep s c), fullEnding s c a rule (verdictSlot (loadStep s c))]
          a.clampTo.isSome)) .cell frame ∧
      Noted s w (notes s c none (verdictEnding rule (loadStep s c)) ++ verdictRecords s c (loadStep s c) ++
        notes s c (eventObject c) (fullEnding s c a rule (verdictSlot (loadStep s c)))) := by
  obtain ⟨w, hw, hout, hnoted⟩ := passiveLoad_eq s c rule
  have hshape := hnoted.shape
  have hfull : (trackStep w c a (verdictSlot (loadStep s c))).2 = (trackStep s c a (verdictSlot (loadStep s c))).2 := by
    refine trackStep_full_congr hout ?_
    obtain ⟨o, v, e, f, hf⟩ := hshape
    rw [hf]
    rfl
  have htracked := trackStep_noted w c a (verdictSlot (loadStep s c))
  unfold passiveRest
  rw [hw]
  dsimp only
  rw [hfull, noteEnding_eq]
  refine ⟨_, rfl, ?_⟩
  have hclock : (trackStep w c a (verdictSlot (loadStep s c))).1.clock = s.clock := by
    obtain ⟨o, ho⟩ := trackStep_frame w c a (verdictSlot (loadStep s c))
    obtain ⟨o', v, e, f, hf⟩ := hshape
    rw [ho, hf]
  have hnotes : ∀ e, notes (trackStep w c a (verdictSlot (loadStep s c))).1 c (eventObject c) e =
      notes s c (eventObject c) e := fun e => by rw [notes, notes, hclock]
  have hall := (hnoted.trans htracked).trans (noted_records _
    (notes s c (eventObject c) (fullEnding s c a rule (verdictSlot (loadStep s c)))))
  rw [List.append_nil] at hall
  rw [hnotes]
  exact hall

/-! ### The decision of a command in PASSIVE -/

/-- The ending of step 2. -/
def frozenEnding (s : State) (c : Command) : Option Ending :=
  if isFrozen s c.slot ∧ c.cls ≠ .read then some (.denied .frozen none) else none

/-- The records of steps 2 and 4. -/
def stepRecords (s : State) (c : Command) (rule : Option (Fin 256)) (a : Action) : List EventRecord :=
  notes s c (eventObject c) (frozenEnding s c) ++ notes s c (eventObject c) a.ending ++
    (clampRecords s c rule a).map passiveRecord

/-- Every record that a command notes in PASSIVE, in its order. -/
def passiveRecords (s : State) (c : Command) (rule : Option (Fin 256)) (a : Action) : List EventRecord :=
  stepRecords s c rule a ++ (notes s c none (verdictEnding rule (loadStep s c)) ++
    verdictRecords s c (loadStep s c) ++
    notes s c (eventObject c) (fullEnding s c a rule (verdictSlot (loadStep s c))))

/-- The state after the records of steps 2 and 4. -/
theorem stepNotes_eq (s : State) (c : Command) (rule : Option (Fin 256)) (a : Action) :
    noteClamp (noteEnding (noteEnding s c.slot c.source (eventObject c) (frozenEnding s c)) c.slot c.source
      (eventObject c) a.ending) c rule a = addRecords s (stepRecords s c rule a) := by
  have hnotes : ∀ recs object e, notes (addRecords s recs) c object e = notes s c object e := fun recs object e => by
    rw [notes, notes, addRecords_clock]
  have hclamp : ∀ recs, clampRecords (addRecords s recs) c rule a = clampRecords s c rule a := fun recs => by
    simp only [clampRecords, clampRecord, addRecords_clock]
  rw [noteEnding_eq, noteEnding_eq, hnotes, ← addRecords_append, noteClamp_eq, hclamp, ← addRecords_append, stepRecords]

/-- A command that stops at MALFORMED notes no more than steps 2 and 4 do. -/
theorem passiveCommand_of_malformed {reason : Reason} {k : Option (Fin 256)} {y : Option Int}
    (ha : actionStep s c l (decidingRule s.activeBank c) = a) (h : a.ending = some (.malformed reason k y)) :
    passiveCommand s c l frame =
      forwardFrame (countDecision (addRecords s (stepRecords s c (decidingRule s.activeBank c) a)) c.slot
        (passiveDecision [frozenEnding s c, a.ending] false)) .cell frame := by
  unfold passiveCommand
  dsimp only
  rw [ha, ← stepNotes_eq]
  unfold frozenEnding
  rw [h]

/-- Any other goes through every step. -/
theorem passiveCommand_of_others (ha : actionStep s c l (decidingRule s.activeBank c) = a)
    (h : ∀ reason k y, a.ending ≠ some (.malformed reason k y)) :
    ∃ w, passiveCommand s c l frame =
        forwardFrame (countDecision w c.slot (passiveDecision
          [frozenEnding s c, a.ending, verdictEnding (decidingRule s.activeBank c) (loadStep s c),
            fullEnding s c a (decidingRule s.activeBank c) (verdictSlot (loadStep s c))] a.clampTo.isSome)) .cell frame ∧
      Noted s w (passiveRecords s c (decidingRule s.activeBank c) a) := by
  have hrest : passiveCommand s c l frame =
      passiveRest (addRecords s (stepRecords s c (decidingRule s.activeBank c) a)) c frame (decidingRule s.activeBank c) a
        (frozenEnding s c) := by
    unfold passiveCommand
    dsimp only
    rw [ha, ← stepNotes_eq]
    unfold frozenEnding
    split
    · next reason k y hending => exact absurd hending (h reason k y)
    · rfl
  obtain ⟨e, f, hshape⟩ := addRecords_frame s (stepRecords s c (decidingRule s.activeBank c) a)
  obtain ⟨w, hw, hnoted⟩ := passiveRest_eq (addRecords s (stepRecords s c (decidingRule s.activeBank c) a)) c frame
    (decidingRule s.activeBank c) a (frozenEnding s c)
  have hload : loadStep (addRecords s (stepRecords s c (decidingRule s.activeBank c) a)) c = loadStep s c := by
    rw [hshape]
    rfl
  have hfull := fullEnding_congr (c := c) (a := a) (rule := decidingRule s.activeBank c)
    (d := verdictSlot (loadStep s c)) (w := addRecords s (stepRecords s c (decidingRule s.activeBank c) a)) (s := s)
    (by rw [hshape]) (addRecords_activeBank _ _) (by rw [hshape])
  have hall := (noted_records s (stepRecords s c (decidingRule s.activeBank c) a)).trans hnoted
  rw [hload, hfull] at hw hall
  refine ⟨w, hrest.trans hw, ?_⟩
  rw [hshape] at hall
  exact hall

end Sys2Proof.Proofs.Mirrors
end

section
/-! The same frame in PASSIVE and in ENFORCE: the same counter, and the first record the counterpart of the other (O18). -/

namespace Sys2Proof.Proofs.Passive

open Sys2Proof Sys2Proof.Machine Sys2Proof.Claims Sys2Proof.Laws Sys2Proof.Proofs Sys2Proof.Proofs.Expiries
open Sys2Proof.Proofs.Consistency Sys2Proof.Proofs.Downstream Sys2Proof.Proofs.Kinds Sys2Proof.Proofs.Placement
open Sys2Proof.Proofs.LoadChecks Sys2Proof.Proofs.ModeBlind Sys2Proof.Proofs.ResetAndSave Sys2Proof.Proofs.Mirrors
open Sys2Proof.Proofs.Changes Sys2Proof.Proofs.Rewrites

variable {s u v w p e : State} {c : Command} {l : Layers} {frame : List Byte} {a : Action} {rule : Option (Fin 256)}
  {b : Bank} {re rp : List EventRecord} {slot : Fin 16} {source : MacAddress} {object : Option (BitVec 32)}

/-! ### Mirrored records -/

/-- The records of a frame in PASSIVE mirror those in ENFORCE: the first is the counterpart of the first, but a TRACK_FULL
is mirrored by the last (R52; log entries 21 and 35). -/
def Mirror (re rp : List EventRecord) : Prop :=
  (re = [] → rp = []) ∧ ∀ r rest, re = r :: rest →
    (r.kind ≠ .trackFull → ∃ rest', rp = counterpart r :: rest') ∧
    (r.kind = .trackFull → rp.length ≤ 4 ∧
      rp.getLast? = some { r with kind := .wouldDeny, reason := some .trackFull, forwarded := r.requested })

/-- A state after a frame in PASSIVE mirrors the one after it in ENFORCE. -/
structure Mirrored (s p e : State) : Prop where
  decisions : p.decisions = e.decisions
  events : ∃ re rp, e.events = (addRecords s re).events ∧ p.events = (addRecords s rp).events ∧ Mirror re rp

/-- With room for four records, the Event Queues show it. -/
theorem Mirrored.shows (h : Mirrored s p e) (hroom : s.events.length ≤ 60) :
    (e.events = s.events → p.events = s.events) ∧
      ∀ r rest, e.events = s.events ++ r :: rest →
        (r.kind ≠ .trackFull → ∃ rest', p.events = s.events ++ counterpart r :: rest') ∧
        (r.kind = .trackFull → p.events.getLast? =
          some { r with kind := .wouldDeny, reason := some .trackFull, forwarded := r.requested }) := by
  obtain ⟨-, re, rp, he, hp, hnone, hfirst⟩ := h
  obtain ⟨n, hn, hfour⟩ : ∃ n, 64 - s.events.length = n + 1 ∧ 3 ≤ n := ⟨63 - s.events.length, by omega, by omega⟩
  rw [addRecords_events, hn] at he hp
  rw [he, hp]
  refine ⟨fun hsame => ?_, fun r rest hcons => ?_⟩
  · cases re with
    | nil => rw [hnone rfl, List.take_nil, List.append_nil]
    | cons r rest => simp at hsame
  · have hcons := List.append_cancel_left hcons
    cases re with
    | nil => cases hcons
    | cons r' rest' =>
      rw [List.take_succ_cons] at hcons
      obtain ⟨rfl, -⟩ := List.cons.inj hcons
      obtain ⟨hother, hfull⟩ := hfirst _ _ rfl
      refine ⟨fun hk => ?_, fun hk => ?_⟩
      · obtain ⟨tail, htail⟩ := hother hk
        rw [htail]
        exact ⟨tail.take n, rfl⟩
      · obtain ⟨hlength, hlast⟩ := hfull hk
        rw [List.take_of_length_le (by omega), List.getLast?_append, hlast]
        rfl

theorem mirror_nil : Mirror [] [] := ⟨fun _ => rfl, fun _ _ h => absurd h.symm (List.cons_ne_nil _ _)⟩

theorem mirror_cons {r : EventRecord} {tail tail' : List EventRecord} (hk : r.kind ≠ .trackFull) :
    Mirror (r :: tail) (counterpart r :: tail') := by
  refine ⟨fun h => absurd h (List.cons_ne_nil _ _), fun r' rest h => ?_⟩
  obtain ⟨rfl, -⟩ := List.cons.inj h
  exact ⟨fun _ => ⟨tail', rfl⟩, fun h => absurd h hk⟩

/-- What an ending applied in ENFORCE leaves in its counter and the Event Queue. -/
theorem applyEnding_shows (s : State) (slot : Fin 16) (source : MacAddress) (object : Option (BitVec 32)) (x : Ending) :
    (applyEnding s slot source object x).decisions = (countDecision s slot (.ends x)).decisions ∧
      (applyEnding s slot source object x).events =
        (addRecords s [endingRecord s.clock (some slot) source object x]).events := by
  rw [applyEnding_eq]
  refine ⟨?_, ?_⟩
  · rw [record_decisions]
    rfl
  · rw [addRecords_events]
    exact addRecords_events _ [endingRecord s.clock (some slot) source object x]

/-- The fields of a state that the comparison of both modes looks at. -/
structure Alike (s v : State) : Prop where
  decisions : v.decisions = s.decisions
  events : v.events = s.events
  clock : v.clock = s.clock

theorem noted_shows (h : Noted s w rp) (slot : Fin 16) (x : Decision) (frame : List Byte) :
    (forwardFrame (countDecision w slot x) .cell frame).decisions = (countDecision s slot x).decisions ∧
      (forwardFrame (countDecision w slot x) .cell frame).events = (addRecords s rp).events := by
  refine ⟨?_, h.events⟩
  obtain ⟨o, t, y, f, hshape⟩ := h.shape
  rw [hshape]
  rfl

/-- An ending noted first in PASSIVE and applied in ENFORCE. -/
theorem mirrored_of_ending {x : Ending} {tail : List EventRecord} (hv : Alike s v)
    (hw : Noted s w (passiveRecord (endingRecord s.clock (some slot) source object x) :: tail))
    (hkind : (endingRecord s.clock (some slot) source object x).kind ≠ .trackFull)
    (hcounterpart : counterpart (endingRecord s.clock (some slot) source object x) =
      passiveRecord (endingRecord s.clock (some slot) source object x)) :
    Mirrored s (forwardFrame (countDecision w slot (.ends x)) .cell frame) (applyEnding v slot source object x) := by
  obtain ⟨hdecisions, hevents⟩ := applyEnding_shows v slot source object x
  obtain ⟨hdecisions', hevents'⟩ := noted_shows hw slot (.ends x) frame
  refine ⟨?_, [endingRecord s.clock (some slot) source object x], _, ?_, hevents', hcounterpart ▸ mirror_cons hkind⟩
  · rw [hdecisions, hdecisions']
    simp only [countDecision, hv.decisions]
  · rw [hevents, addRecords_events, addRecords_events, hv.events, hv.clock]

theorem alike_enforce (s : State) : Alike s (withMode s .enforce) := ⟨rfl, rfl, rfl⟩

theorem alike_refusal (s : State) (freed : Option (Fin 4)) : Alike s (applyRefusal (withMode s .enforce) freed) := by
  cases freed <;> exact ⟨rfl, rfl, rfl⟩

/-! ### Frames without a command -/

/-- An ending of step 1, or of an UNGUARDED frame, in both modes. -/
theorem applyByMode_mirrors {x : Ending} (hmode : s.mode = .passive)
    (hkind : (endingRecord s.clock (some slot) source object x).kind ≠ .trackFull)
    (hcounterpart : counterpart (endingRecord s.clock (some slot) source object x) =
      passiveRecord (endingRecord s.clock (some slot) source object x)) :
    Mirrored s (applyByMode s slot source object x frame) (applyByMode (withMode s .enforce) slot source object x frame) := by
  have henforce : (withMode s .enforce).mode = .enforce := rfl
  rw [applyByMode, applyByMode, if_pos henforce, if_neg (by rw [hmode]; decide)]
  exact mirrored_of_ending (alike_enforce s) (noted_records s [_]) hkind hcounterpart

theorem decideBroadcast_mirrors (hmode : s.mode = .passive) :
    Mirrored s (decideBroadcast s source frame) (decideBroadcast (withMode s .enforce) source frame) := by
  have henforce : (withMode s .enforce).mode = .enforce := rfl
  rw [decideBroadcast, decideBroadcast, if_pos henforce, if_neg (by rw [hmode]; decide)]
  refine ⟨?_, [broadcastRecord s source], [passiveRecord (broadcastRecord s source)], ?_, rfl, mirror_cons (by simp [broadcastRecord])⟩
  · rw [countGuardDrop_record, record_decisions]
    exact record_decisions s _
  · rw [countGuardDrop_record, addRecords_events]
    exact addRecords_events _ [broadcastRecord s source]

/-! ### The action of a command (R44) -/

/-- An action that clamps only a value it decoded, and ends nothing then. -/
def ClampsValue (a : Action) : Prop := ∀ q, a.clampTo = some q → a.ending = none ∧ a.value.isSome = true

theorem boundAction_clamps (s : State) (c : Command) (l : Layers) (k : Fin 256) : ClampsValue (boundAction s c l k) := by
  unfold boundAction
  dsimp only
  split
  · exact fun _ h => (nomatch h)
  · split
    · exact fun _ h => (nomatch h)
    · split
      · exact fun _ h => (nomatch h)
      · split
        · exact fun _ h => (nomatch h)
        · split
          · exact fun _ h => (nomatch h)
          · exact fun _ _ => ⟨rfl, rfl⟩
        · exact fun _ h => (nomatch h)
        · exact fun _ h => (nomatch h)

/-- Only a BOUND rule decodes a value. -/
theorem actionStep_shape (s : State) (c : Command) (l : Layers) (rule : Option (Fin 256)) :
    ClampsValue (actionStep s c l rule) ∧
    ((actionStep s c l rule).value.isSome = true → ∃ k, rule = some k ∧ s.activeBank.rules[k].action = 3) := by
  cases rule with
  | none =>
    rw [actionStep]
    split <;> exact ⟨fun _ h => (nomatch h), fun h => (nomatch h)⟩
  | some k =>
    rw [actionStep]
    split
    · exact ⟨fun _ h => (nomatch h), fun h => (nomatch h)⟩
    · split <;> exact ⟨fun _ h => (nomatch h), fun h => (nomatch h)⟩
    · next haction => exact ⟨boundAction_clamps s c l k, fun _ => ⟨k, rfl, BitVec.eq_of_toNat_eq haction⟩⟩
    · exact ⟨fun _ h => (nomatch h), fun h => (nomatch h)⟩

/-- The action is the same in both modes when the received checksum is sound. -/
theorem actionStep_enforce (hmode : s.mode = .passive) (hsound : checksumFails (withMode s .enforce) c l = false)
    (rule : Option (Fin 256)) : actionStep (withMode s .enforce) c l rule = actionStep s c l rule := by
  have hpassive : checksumFails s c l = false := by
    rw [checksumFails, hmode]
    rfl
  have hbound : ∀ k, boundAction (withMode s .enforce) c l k = boundAction s c l k := fun k => by
    unfold boundAction
    rw [hsound, hpassive]
    rfl
  cases rule with
  | none => rfl
  | some k =>
    rw [actionStep, actionStep, hbound]
    rfl

/-- In a bank that passes its checks a BOUND rule decides WRITE_VALUE commands alone (R139). -/
theorem writeValue_of_bound {station : MacAddress} {k : Fin 256} (hpass : firstFailure station b = none)
    (hused : slotUsed b c.slot = true) (hk : decidingRule b c = some k) (haction : b.rules[k].action = 3) :
    c.cls = .writeValue := by
  obtain ⟨⟨common, hcommon⟩, -, hcontrollers, hinj, hrules, -⟩ := firstFailure_eq_none_iff.mp hpass
  obtain ⟨-, ⟨own, hown⟩, -⟩ := hcontrollers c.slot hused
  rw [decidingRule_eq hown hcommon] at hk
  have hrule : PassingRule b.rules[k] :=
    (List.mem_append.mp (List.mem_of_find?_eq_some hk)).elim (hrules _ own k (.inr ⟨c.slot, hused, rfl⟩) hown)
      (hrules _ common k (.inl rfl) hcommon)
  have hmatches := List.find?_some hk
  rw [ruleMatches_iff hinj] at hmatches
  obtain ⟨hcls, -⟩ := hmatches
  obtain ⟨hset, -⟩ := hrule.2.2.2.2 haction
  rw [hset] at hcls
  cases h : c.cls <;> rw [h] at hcls
  all_goals exact absurd hcls (by decide)

/-! ### Commands in both modes -/

/-- Refusals of the Load Checker never report a restart. -/
theorem loadVerdict_refusal {kind : EventKind} {reason : Option Reason} {freed : Option (Fin 4)} {extra : Option Nat}
    (h : loadVerdict s c = .refusal kind reason freed extra) :
    kind = .loadNoSlot ∨ kind = .loadOrphan ∨ kind = .loadRejected ∨
      (kind = .loadAborted ∧ reason ≠ some .restarted) := by
  have haborted : ∀ (d : Fin 4) (r : Download) (why : Reason), why ≠ .restarted →
      abortRefusal d r why = .refusal kind reason freed extra → kind = .loadAborted ∧ reason ≠ some .restarted :=
    fun d r why hwhy h => by
      cases h
      exact ⟨rfl, fun h => hwhy (Option.some.inj h)⟩
  unfold loadVerdict at h
  split at h
  · unfold beginVerdict at h
    split at h
    · cases h
    · split at h
      · cases h
      · cases h
        exact .inl rfl
  · split at h
    · cases h
      exact .inr (.inl rfl)
    · split at h
      · cases h
        exact .inr (.inl rfl)
      · split at h
        · cases h
          exact .inr (.inl rfl)
        · split at h
          · exact .inr (.inr (.inr (haborted _ _ _ (by decide) h)))
          · split at h
            · unfold activateVerdict at h
              split at h
              · cases h
              · cases h
                exact .inr (.inr (.inl rfl))
            · split at h
              · unfold segmentVerdict at h
                split at h
                · split at h
                  · exact .inr (.inr (.inr (haborted _ _ _ (by decide) h)))
                  · cases h
                · split at h
                  · split at h
                    · cases h
                    · exact .inr (.inr (.inr (haborted _ _ _ (by decide) h)))
                  · exact .inr (.inr (.inr (haborted _ _ _ (by decide) h)))
              · exact .inr (.inr (.inr (haborted _ _ _ (by decide) h)))

theorem counterpart_load {kind : EventKind} {reason : Option Reason} {extra : Option Nat}
    (h : kind = .loadNoSlot ∨ kind = .loadOrphan ∨ kind = .loadRejected ∨
      (kind = .loadAborted ∧ reason ≠ some .restarted)) (time : Nat) :
    (endingRecord time (some slot) source object (.load kind reason rule extra)).kind ≠ .trackFull ∧
      counterpart (endingRecord time (some slot) source object (.load kind reason rule extra)) =
        passiveRecord (endingRecord time (some slot) source object (.load kind reason rule extra)) := by
  rcases h with rfl | rfl | rfl | ⟨rfl, hreason⟩
  · exact ⟨by simp [endingRecord], rfl⟩
  · exact ⟨by simp [endingRecord], rfl⟩
  · exact ⟨by simp [endingRecord], rfl⟩
  · refine ⟨by simp [endingRecord], ?_⟩
    cases reason with
    | none => rfl
    | some r =>
      cases r
      case restarted => exact absurd rfl hreason
      all_goals rfl

/-- In PASSIVE the value an entry would hold is the requested one (R67, log entry 35). -/
theorem forwardedValue_passive (hmode : s.mode = .passive) (a : Action) : forwardedValue s a = a.value.map (·.2) := by
  have hne : ¬ s.mode = .enforce := by rw [hmode]; decide
  unfold forwardedValue
  cases a.value with
  | none => rfl
  | some y =>
    cases a.clampTo with
    | none => rfl
    | some q => exact if_neg hne

/-- A command that step 2 ends in ENFORCE. -/
theorem frozen_mirrors (hcls : c.cls ≠ .read) (hfrozen : guardOf s c.slot = some .frozen)
    {more : List (Option Ending)} {clamped : Bool} {tail : List EventRecord}
    (hw : Noted s w (stepRecords s c rule a ++ tail)) :
    Mirrored s (forwardFrame (countDecision w c.slot (passiveDecision (frozenEnding s c :: more) clamped)) .cell frame)
      (applyEnding (withMode s .enforce) c.slot c.source (eventObject c) (.denied .frozen none)) := by
  have hending : frozenEnding s c = some (.denied .frozen none) := if_pos ⟨isFrozen_iff.mpr hfrozen, hcls⟩
  rw [stepRecords, hending] at hw
  rw [hending]
  exact mirrored_of_ending (alike_enforce s) hw (by simp [endingRecord]) rfl

/-- The endings that step 4 makes. -/
def StepEnding (x : Ending) : Prop :=
  (∃ reason k y, x = .malformed reason k y) ∨ (∃ reason k, x = .denied reason k) ∨
    ∃ reason k y, x = .valueRefused reason k y

theorem counterpart_step {x : Ending} (h : StepEnding x) (time : Nat) :
    (endingRecord time (some slot) source object x).kind ≠ .trackFull ∧
      counterpart (endingRecord time (some slot) source object x) =
        passiveRecord (endingRecord time (some slot) source object x) := by
  rcases h with ⟨_, _, _, rfl⟩ | ⟨_, _, rfl⟩ | ⟨_, _, _, rfl⟩
  all_goals exact ⟨by simp [endingRecord], rfl⟩

/-- An action whose ending, if it has one, is one of step 4. -/
def EndsStep (a : Action) : Prop := ∀ x, a.ending = some x → StepEnding x

theorem endsStep_none (h : a.ending = none) : EndsStep a := fun x hx => by
  rw [h] at hx
  cases hx

theorem endsStep_some {x : Ending} (h : a.ending = some x) (hx : StepEnding x) : EndsStep a := fun y hy => by
  rw [h] at hy
  cases hy
  exact hx

theorem boundAction_ends (s : State) (c : Command) (l : Layers) (k : Fin 256) : EndsStep (boundAction s c l k) := by
  unfold boundAction
  dsimp only
  split
  · exact endsStep_none rfl
  · split
    · exact endsStep_some rfl (.inr (.inl ⟨_, _, rfl⟩))
    · split
      · exact endsStep_some rfl (.inl ⟨_, _, _, rfl⟩)
      · split
        · exact endsStep_none rfl
        · split
          · exact endsStep_some rfl (.inl ⟨_, _, _, rfl⟩)
          · exact endsStep_none rfl
        · exact endsStep_some rfl (.inr (.inr ⟨_, _, _, rfl⟩))
        · exact endsStep_some rfl (.inr (.inr ⟨_, _, _, rfl⟩))

theorem actionStep_ends (s : State) (c : Command) (l : Layers) (rule : Option (Fin 256)) :
    EndsStep (actionStep s c l rule) := by
  cases rule with
  | none =>
    rw [actionStep]
    split
    · exact endsStep_none rfl
    · exact endsStep_some rfl (.inr (.inl ⟨_, _, rfl⟩))
  | some k =>
    rw [actionStep]
    split
    · exact endsStep_none rfl
    · split
      · exact endsStep_none rfl
      · exact endsStep_some rfl (.inr (.inl ⟨_, _, rfl⟩))
    · exact boundAction_ends s c l k
    · exact endsStep_some rfl (.inr (.inl ⟨_, _, rfl⟩))

/-- A command that step 4 ends in ENFORCE. -/
theorem ended_mirrors {x : Ending} (hopen : frozenEnding s c = none) (hx : a.ending = some x) (hstep : StepEnding x)
    {more : List (Option Ending)} {clamped : Bool} {tail : List EventRecord}
    (hw : Noted s w (stepRecords s c rule a ++ tail)) :
    Mirrored s
      (forwardFrame (countDecision w c.slot (passiveDecision (frozenEnding s c :: a.ending :: more) clamped)) .cell frame)
      (applyEnding (withMode s .enforce) c.slot c.source (eventObject c) x) := by
  obtain ⟨hkind, hcounterpart⟩ := counterpart_step (slot := c.slot) (source := c.source) (object := eventObject c) hstep
    s.clock
  rw [stepRecords, hopen, hx] at hw
  rw [hopen, hx]
  exact mirrored_of_ending (alike_enforce s) hw hkind hcounterpart

theorem clampRecords_of_none (h : a.clampTo = none) : clampRecords s c rule a = [] := by
  unfold clampRecords
  rw [h]
  cases a.value <;> rfl

/-- Steps 2 and 4 that let a command through note a clamp at most. -/
theorem stepRecords_of_through (hopen : frozenEnding s c = none) (hnone : a.ending = none) :
    stepRecords s c rule a = (clampRecords s c rule a).map passiveRecord := by
  rw [stepRecords, hopen, hnone]
  rfl

/-- A command that the Load Checker refuses. -/
theorem refused_mirrors {kind : EventKind} {reason : Option Reason} {freed : Option (Fin 4)} {extra : Option Nat}
    (hopen : frozenEnding s c = none) (hnone : a.ending = none) (hclamp : a.clampTo = none)
    (hload : loadStep s c = some (.refusal kind reason freed extra)) {full : Option Ending} {clamped : Bool}
    (hw : Noted s w (passiveRecords s c rule a)) :
    Mirrored s
      (forwardFrame (countDecision w c.slot (passiveDecision
        [frozenEnding s c, a.ending, verdictEnding rule (loadStep s c), full] clamped)) .cell frame)
      (applyEnding (applyRefusal (withMode s .enforce) freed) c.slot c.source none (.load kind reason rule extra)) := by
  have hverdict : loadVerdict s c = .refusal kind reason freed extra := by
    unfold loadStep at hload
    split at hload
    · exact Option.some.inj hload
    · cases hload
  obtain ⟨hkind, hcounterpart⟩ := counterpart_load (slot := c.slot) (source := c.source) (object := none) (rule := rule)
    (extra := extra) (loadVerdict_refusal hverdict) s.clock
  rw [passiveRecords, stepRecords_of_through hopen hnone, clampRecords_of_none hclamp, hload] at hw
  rw [hopen, hnone, hload]
  exact mirrored_of_ending (alike_refusal s freed) hw hkind hcounterpart

theorem changeRecords_length (s : State) (c : Command) (d : Fin 4) (change : LoadChange) :
    (changeRecords s c d change).length ≤ 2 := by
  cases change with
  | begin =>
    rw [changeRecords]
    cases s.loads[d] <;> simp
  | fold | duplicate | activate => exact Nat.zero_le _

theorem clampRecords_length (s : State) (c : Command) (rule : Option (Fin 256)) (a : Action) :
    (clampRecords s c rule a).length ≤ 1 := by
  unfold clampRecords
  split
  · exact le_rfl
  · exact Nat.zero_le _

/-- The verdict of a pass, or of no check. -/
def passVerdict (pass : Option (Fin 4 × LoadChange)) : Option LoadVerdict := pass.map (fun x => .pass x.1 x.2)

theorem verdictRecords_pass (s : State) (c : Command) (pass : Option (Fin 4 × LoadChange)) :
    (verdictRecords s c (passVerdict pass)).length ≤ 2 ∧ verdictEnding rule (passVerdict pass) = none ∧
      verdictSlot (passVerdict pass) = pass.map (·.1) := by
  cases pass with
  | none => exact ⟨Nat.zero_le _, rfl, rfl⟩
  | some x => exact ⟨changeRecords_length s c x.1 x.2, rfl, rfl⟩

theorem notes_some (s : State) (c : Command) (object : Option (BitVec 32)) (x : Ending) :
    notes s c object (some x) = [passiveRecord (endingRecord s.clock (some c.slot) c.source object x)] := rfl

/-- A command without room for its entry (log entries 21 and 35). -/
theorem full_mirrors {pass : Option (Fin 4 × LoadChange)} (hmode : s.mode = .passive) (hopen : frozenEnding s c = none)
    (hnone : a.ending = none) (hload : loadStep s c = passVerdict pass)
    (hfull : (trackStep s c a (pass.map (·.1))).2 = true) {clamped : Bool} (hw : Noted s w (passiveRecords s c rule a)) :
    Mirrored s
      (forwardFrame (countDecision w c.slot (passiveDecision
        [frozenEnding s c, a.ending, verdictEnding rule (loadStep s c),
          fullEnding s c a rule (verdictSlot (loadStep s c))] clamped)) .cell frame)
      (applyEnding (withMode s .enforce) c.slot c.source (eventObject c)
        (trackFullEnding (withMode s .enforce) a rule)) := by
  obtain ⟨hlength, hending, hslot⟩ := verdictRecords_pass (rule := rule) s c pass
  have hclampLength := clampRecords_length s c rule a
  have hfullEnding : fullEnding s c a rule (pass.map (·.1)) = some (trackFullEnding s a rule) := if_pos hfull
  rw [passiveRecords, stepRecords_of_through hopen hnone, hload, hending, hslot, hfullEnding] at hw
  rw [hopen, hnone, hload, hending, hslot, hfullEnding]
  obtain ⟨hdecisions, hevents⟩ := applyEnding_shows (withMode s .enforce) c.slot c.source (eventObject c)
    (trackFullEnding (withMode s .enforce) a rule)
  obtain ⟨hdecisions', hevents'⟩ := noted_shows hw c.slot (.ends (trackFullEnding s a rule)) frame
  refine ⟨?_, [endingRecord s.clock (some c.slot) c.source (eventObject c) (trackFullEnding (withMode s .enforce) a rule)],
    _, ?_, hevents', ?_⟩
  · rw [hdecisions]
    exact hdecisions'
  · rw [hevents, addRecords_events, addRecords_events]
    rfl
  · refine ⟨fun h => absurd h (List.cons_ne_nil _ _), fun r rest h => ?_⟩
    obtain ⟨rfl, -⟩ := List.cons.inj h
    refine ⟨fun hkind => absurd rfl hkind, fun _ => ⟨?_, ?_⟩⟩
    · simp only [List.length_append, List.length_map, notes, Option.map_none, Option.toList_none, List.length_nil,
        Option.map_some, Option.toList_some, List.length_singleton]
      omega
    · rw [← List.append_assoc, notes_some, List.getLast?_concat, trackFullEnding,
        forwardedValue_passive hmode]
      rfl

/-! ### Commands placed in both modes -/

/-- The counter of a command that no step ends. -/
def placedDecision (a : Action) : Decision := if a.clampTo.isSome then .clamp else .permit

theorem placeDecided_eq (h : ClampsValue a) :
    placeDecided s c frame rule a =
      forwardFrame (countDecision (addRecords s (clampRecords s c rule a)) c.slot (placedDecision a)) .cell
        (sentFrame c frame a) := by
  unfold placeDecided clampRecords sentFrame placedDecision
  cases hclamp : a.clampTo with
  | none => cases a.value <;> rfl
  | some q =>
    obtain ⟨-, hvalue⟩ := h q hclamp
    cases hv : a.value with
    | none => rw [hv] at hvalue; cases hvalue
    | some y => rfl

theorem applyPass_noted (s : State) (c : Command) (pass : Option (Fin 4 × LoadChange)) :
    Noted s (applyPass s c pass) (verdictRecords s c (passVerdict pass)) := by
  cases pass with
  | none => exact .refl s
  | some x =>
    obtain ⟨v, h⟩ := applyLoadChange_eq s c x.1 x.2
    exact ⟨s.outstanding, v, h⟩

/-- Records of a change stand for themselves (R52). -/
theorem counterpart_change {d : Fin 4} {change : LoadChange} {r : EventRecord} {rest : List EventRecord}
    (h : changeRecords s c d change = r :: rest) : r.kind ≠ .trackFull ∧ counterpart r = r := by
  cases change with
  | begin =>
    rw [changeRecords] at h
    cases hd : s.loads[d] with
    | none =>
      rw [hd] at h
      obtain ⟨rfl, -⟩ := List.cons.inj h
      exact ⟨by simp, rfl⟩
    | some q =>
      rw [hd] at h
      obtain ⟨rfl, -⟩ := List.cons.inj h
      exact ⟨by simp [abortRecord], rfl⟩
  | fold | duplicate | activate => cases h

theorem mirror_change (s : State) (c : Command) (pass : Option (Fin 4 × LoadChange)) :
    Mirror (verdictRecords s c (passVerdict pass)) (verdictRecords s c (passVerdict pass)) := by
  cases pass with
  | none => exact mirror_nil
  | some x =>
    have hrecords : verdictRecords s c (passVerdict (some x)) = changeRecords s c x.1 x.2 := rfl
    rw [hrecords]
    cases h : changeRecords s c x.1 x.2 with
    | nil => exact mirror_nil
    | cons r rest =>
      obtain ⟨hkind, hcounterpart⟩ := counterpart_change h
      have hmirror := mirror_cons (tail := rest) (tail' := rest) hkind
      rwa [hcounterpart] at hmirror

/-- A clamp is never a load command, so that its record is the only one. -/
theorem mirror_placed {pass : Option (Fin 4 × LoadChange)} (h : a.clampTo = none ∨ pass = none) :
    Mirror (verdictRecords s c (passVerdict pass) ++ clampRecords s c rule a)
      ((clampRecords s c rule a).map passiveRecord ++ verdictRecords s c (passVerdict pass)) := by
  rcases h with h | rfl
  · rw [clampRecords_of_none h, List.append_nil, List.map_nil, List.nil_append]
    exact mirror_change s c pass
  · have hnone : verdictRecords s c (passVerdict none) = [] := rfl
    rw [hnone, List.nil_append, List.append_nil]
    unfold clampRecords
    split
    · exact mirror_cons (by simp [clampRecord])
    · exact mirror_nil

/-- A command that every step lets through. -/
theorem placed_mirrors {pass : Option (Fin 4 × LoadChange)} (hopen : frozenEnding s c = none) (hnone : a.ending = none)
    (hshape : ClampsValue a) (hexclusive : a.clampTo = none ∨ pass = none) (hload : loadStep s c = passVerdict pass)
    (hroom : (trackStep s c a (pass.map (·.1))).2 = false) {f : List Byte} (hw : Noted s w (passiveRecords s c rule a)) :
    Mirrored s
      (forwardFrame (countDecision w c.slot (passiveDecision
        [frozenEnding s c, a.ending, verdictEnding rule (loadStep s c),
          fullEnding s c a rule (verdictSlot (loadStep s c))] a.clampTo.isSome)) .cell f)
      (placeDecided (applyPass (trackStep (withMode s .enforce) c a (pass.map (·.1))).1 c pass) c frame rule a) := by
  obtain ⟨-, hending, hslot⟩ := verdictRecords_pass (rule := rule) s c pass
  have hfullEnding : fullEnding s c a rule (pass.map (·.1)) = none := by
    rw [fullEnding, hroom]
    rfl
  rw [passiveRecords, stepRecords_of_through hopen hnone, hload, hending, hslot, hfullEnding] at hw
  rw [hopen, hnone, hload, hending, hslot, hfullEnding, placeDecided_eq hshape]
  obtain ⟨o, ho⟩ := trackStep_frame (withMode s .enforce) c a (pass.map (·.1))
  have hpass := applyPass_noted (trackStep (withMode s .enforce) c a (pass.map (·.1))).1 c pass
  have htracked := trackStep_noted (withMode s .enforce) c a (pass.map (·.1))
  have hrecords : verdictRecords (trackStep (withMode s .enforce) c a (pass.map (·.1))).1 c (passVerdict pass) =
      verdictRecords s c (passVerdict pass) := by
    rw [ho]
    cases pass with
    | none => rfl
    | some x =>
      obtain ⟨d, change⟩ := x
      cases change <;> rfl
  rw [hrecords] at hpass
  have hboth := htracked.trans hpass
  rw [List.nil_append] at hboth
  generalize applyPass (trackStep (withMode s .enforce) c a (pass.map (·.1))).1 c pass = v at hboth ⊢
  have hclamp : clampRecords v c rule a = clampRecords s c rule a := by
    obtain ⟨_, _, _, _, hv⟩ := hboth.shape
    rw [hv]
    rfl
  obtain ⟨hdecisions, hevents⟩ := noted_shows (hboth.trans (noted_records v (clampRecords v c rule a))) c.slot
    (placedDecision a) (sentFrame c frame a)
  obtain ⟨hdecisions', hevents'⟩ := noted_shows hw c.slot (placedDecision a) f
  rw [hclamp] at hdecisions hevents ⊢
  refine ⟨?_, verdictRecords s c (passVerdict pass) ++ clampRecords s c rule a, _, ?_, hevents', ?_⟩
  · exact hdecisions'.trans hdecisions.symm
  · rw [hevents, addRecords_events]
    exact (addRecords_events s _).symm
  · rw [notes, notes, Option.map_none, Option.map_none, Option.toList_none, List.nil_append, List.append_nil]
    exact mirror_placed hexclusive

/-- Steps 2 and 4 in PASSIVE, whatever follows them. -/
theorem passiveCommand_front (ha : actionStep s c l (decidingRule s.activeBank c) = a) :
    ∃ w more clamped tail, passiveCommand s c l frame =
        forwardFrame (countDecision w c.slot (passiveDecision (frozenEnding s c :: a.ending :: more) clamped)) .cell
          frame ∧
      Noted s w (stepRecords s c (decidingRule s.activeBank c) a ++ tail) := by
  by_cases h : ∃ reason k y, a.ending = some (.malformed reason k y)
  · obtain ⟨reason, k, y, h⟩ := h
    refine ⟨_, [], false, [], passiveCommand_of_malformed ha h, ?_⟩
    rw [List.append_nil]
    exact noted_records s _
  · obtain ⟨w, hw, hnoted⟩ := passiveCommand_of_others (frame := frame) ha fun reason k y hx => h ⟨reason, k, y, hx⟩
    exact ⟨w, _, _, _, hw, hnoted⟩

/-- A command in both modes: with a sound checksum, and a bank whose BOUND rules decide WRITE_VALUE commands alone. -/
theorem command_mirrors (hmode : s.mode = .passive) (hsound : checksumFails (withMode s .enforce) c l = false)
    (hwrite : ∀ k, decidingRule s.activeBank c = some k → s.activeBank.rules[k].action = 3 → c.cls = .writeValue) :
    Mirrored s (passiveCommand s c l frame) (enforceCommand (withMode s .enforce) c l frame) := by
  have ha' := actionStep_enforce hmode hsound (decidingRule s.activeBank c)
  obtain ⟨hclamps, hbound⟩ := actionStep_shape s c l (decidingRule s.activeBank c)
  have hends := actionStep_ends s c l (decidingRule s.activeBank c)
  generalize ha : actionStep s c l (decidingRule s.activeBank c) = a at *
  by_cases hf : Unfrozen s c
  · have hopen : frozenEnding s c = none := if_neg fun h => hf.elim h.2 fun hne => hne (isFrozen_iff.mp h.1)
    cases hending : a.ending with
    | some x =>
      obtain ⟨w, more, clamped, tail, hw, hnoted⟩ := passiveCommand_front (frame := frame) ha
      rw [enforceCommand_of_ending (s := withMode s .enforce) hf ((congrArg Action.ending ha').trans hending), hw]
      exact ended_mirrors hopen hending (hends x hending) hnoted
    | none =>
      obtain ⟨w, hw, hnoted⟩ := passiveCommand_of_others (frame := frame) ha fun _ _ _ h => by
        rw [hending] at h
        cases h
      have hexclusive : a.clampTo = none ∨ loadStep s c = none := by
        cases hclamp : a.clampTo with
        | none => exact .inl rfl
        | some q =>
          obtain ⟨k, hk, haction⟩ := hbound (hclamps q hclamp).2
          exact .inr (loadStep_eq_none (.inl (by rw [hwrite k hk haction]; rfl)))
      have hloads : loadStep (withMode s .enforce) c = loadStep s c := rfl
      rw [hw]
      by_cases hrefused : ∃ kind reason freed extra, loadStep s c = some (.refusal kind reason freed extra)
      · obtain ⟨kind, reason, freed, extra, hload⟩ := hrefused
        rw [enforceCommand_of_refusal (s := withMode s .enforce) hf ha' hending (hloads.trans hload)]
        exact refused_mirrors hopen hending (hexclusive.resolve_right (by rw [hload]; nofun)) hload hnoted
      · have hpass : ∃ pass, loadStep s c = passVerdict pass ∧ enforceCommand (withMode s .enforce) c l frame =
            enforceTrack (withMode s .enforce) c frame (decidingRule s.activeBank c) a pass := by
          cases hload : loadStep s c with
          | none => exact ⟨none, rfl, enforceCommand_of_unchecked (s := withMode s .enforce) hf ha' hending hload⟩
          | some verdict =>
            cases verdict with
            | refusal kind reason freed extra => exact absurd ⟨kind, reason, freed, extra, hload⟩ hrefused
            | pass d change =>
              exact ⟨some (d, change), rfl, enforceCommand_of_pass (s := withMode s .enforce) hf ha' hending hload⟩
        obtain ⟨pass, hload, hdecided⟩ := hpass
        have hsame : (trackStep (withMode s .enforce) c a (pass.map (·.1))).2 = (trackStep s c a (pass.map (·.1))).2 :=
          trackStep_full_congr rfl rfl
        rw [hdecided, enforceTrack, hsame]
        cases hfull : (trackStep s c a (pass.map (·.1))).2 with
        | true => exact full_mirrors hmode hopen hending hload hfull hnoted
        | false =>
          refine placed_mirrors hopen hending hclamps (hexclusive.imp_right fun hnone => ?_) hload hfull hnoted
          rw [hload] at hnone
          exact Option.map_eq_none_iff.mp hnone
  · obtain ⟨hcls, hfrozen⟩ := not_or.mp hf
    obtain ⟨w, more, clamped, tail, hw, hnoted⟩ := passiveCommand_front (frame := frame) ha
    rw [enforceCommand_of_frozen (s := withMode s .enforce) hcls (not_not.mp hfrozen), hw]
    exact frozen_mirrors hcls (not_not.mp hfrozen) hnoted

/-! ### Every frame in both modes -/

theorem slotUsed_of_command (h : commandOf b frame = some c) : slotUsed b c.slot = true := by
  obtain ⟨slot, i, p, hkind, hparse⟩ := commandOf_eq_some h
  obtain ⟨code, -, -, -, rfl⟩ := parseCommand_eq_command hparse
  unfold classifyDownstream at hkind
  split at hkind
  · next found hfound =>
    have hused : slotUsed b found = true := mem_usedSlots.mp (List.mem_of_find?_eq_some hfound)
    split at hkind
    · split at hkind
      · cases hkind
        exact hused
      · cases hkind
    · cases hkind
  · split at hkind <;> cases hkind

/-- A frame placed as it came mirrors itself. -/
theorem forward_mirrors (s : State) (frame : List Byte) :
    Mirrored s (forwardFrame s .cell frame) (forwardFrame (withMode s .enforce) .cell frame) :=
  ⟨rfl, [], [], rfl, rfl, mirror_nil⟩

theorem handleDownstream_mirrors (hmode : s.mode = .passive) (hbank : BankConsistent s)
    (hsound : ∀ c, commandOf s.activeBank frame = some c →
      checksumFails (withMode s .enforce) c (readLayers (withoutFcs frame)) = false) :
    Mirrored s (handleDownstream s (readLayers (withoutFcs frame)) frame)
      (handleDownstream (withMode s .enforce) (readLayers (withoutFcs frame)) frame) := by
  have hsame : (withMode s .enforce).activeBank = s.activeBank := rfl
  have hpassive : ¬ s.mode = .enforce := by rw [hmode]; decide
  have henforce : (withMode s .enforce).mode = .enforce := rfl
  unfold handleDownstream
  rw [hsame]
  cases hkind : classifyDownstream s.activeBank (readLayers (withoutFcs frame)) with
  | transit => exact forward_mirrors s frame
  | response => exact forward_mirrors s frame
  | broadcastCommand => exact decideBroadcast_mirrors hmode
  | unguarded slot =>
    dsimp only [decideUnguarded]
    rw [hsame]
    split
    · exact applyByMode_mirrors hmode (by simp [endingRecord]) rfl
    · exact ⟨rfl, [], [], rfl, rfl, mirror_nil⟩
  | command slot i p =>
    dsimp only [decideCommand]
    rw [hsame]
    cases hparse : parseCommand s.activeBank slot i p (readLayers (withoutFcs frame)) with
    | malformed reason object => exact applyByMode_mirrors hmode (by simp [endingRecord]) rfl
    | command c =>
      have hc : commandOf s.activeBank frame = some c := by
        rw [commandOf, hkind]
        dsimp only
        rw [hparse]
      dsimp only
      rw [if_pos henforce, if_neg hpassive]
      exact command_mirrors hmode (hsound c hc) fun k => writeValue_of_bound hbank (slotUsed_of_command hc)

/-- What PASSIVE does with every frame: it is placed as it came, and neither violation nor Guard Drop is counted. -/
structure PlacedAsItCame (s p : State) (frame : List Byte) : Prop where
  cell : p.cell = placeForward s.cell frame
  guards : p.guards = s.guards
  net : p.net = s.net

theorem placedAsItCame (h : Noted s w re) (slot : Fin 16) (x : Decision) (frame : List Byte) :
    PlacedAsItCame s (forwardFrame (countDecision w slot x) .cell frame) frame := by
  obtain ⟨o, t, y, f, hshape⟩ := h.shape
  rw [hshape]
  exact ⟨rfl, rfl, rfl⟩

theorem applyByMode_passive {x : Ending} (hpassive : ¬ s.mode = .enforce) :
    PlacedAsItCame s (applyByMode s slot source object x frame) frame := by
  rw [applyByMode, if_neg hpassive]
  exact placedAsItCame (noted_records s [_]) slot _ frame

theorem handleDownstream_passive (hmode : s.mode = .passive) :
    PlacedAsItCame s (handleDownstream s l frame) frame := by
  have hpassive : ¬ s.mode = .enforce := by rw [hmode]; decide
  unfold handleDownstream
  cases classifyDownstream s.activeBank l with
  | transit => exact ⟨rfl, rfl, rfl⟩
  | response => exact ⟨rfl, rfl, rfl⟩
  | broadcastCommand =>
    dsimp only [decideBroadcast]
    rw [if_neg hpassive, forwardFrame_record]
    exact ⟨record_cell _ _, record_guards _ _, record_net _ _⟩
  | unguarded slot =>
    dsimp only [decideUnguarded]
    split
    · exact applyByMode_passive hpassive
    · exact placedAsItCame (.refl s) slot _ frame
  | command slot i p =>
    dsimp only [decideCommand]
    cases parseCommand s.activeBank slot i p l with
    | malformed reason object => exact applyByMode_passive hpassive
    | command c =>
      obtain ⟨w, more, clamped, tail, hw, hnoted⟩ := passiveCommand_front (s := s) (c := c) (l := l) (frame := frame) rfl
      dsimp only
      rw [if_neg hpassive, hw]
      exact placedAsItCame hnoted c.slot _ frame

theorem noticeAfter_guardDrops (u w : State) : (noticeAfter u w).net.guardDrops = w.net.guardDrops := by
  have hgrant : ∀ ps, (grant ps).guardDrops = ps.guardDrops := fun ps => by
    obtain ⟨-, -, -, -, hdrops, -⟩ := grant_counters ps
    exact hdrops
  have hplace : ∀ ps r, (placeReply ps r).guardDrops = ps.guardDrops := fun ps r => by
    unfold placeReply
    dsimp only
    split
    · exact hgrant _
    · rfl
  rcases noticeAfter_cases u w with h | ⟨r, rest, n, -, -, -, h⟩
  · rw [h]
  · rcases offerNotice_cases w n r u.overflow with ⟨-, h'⟩ | ⟨-, -, h'⟩ | ⟨-, -, h'⟩ <;> rw [h, h']
    exact hplace _ _

/-- Settles O18. -/
theorem passivePlacesEveryFrameUnchanged : Obligations.PassivePlacesEveryFrameUnchanged := by
  intro dt frame s hmode h
  have henforced : ({ s with mode := .enforce } : State).elapse dt = withMode (s.elapse dt) .enforce :=
    elapse_withMode s .enforce dt
  have harrival := exec_frameArrival_net (s := { s with mode := .enforce }) (dt := dt) (frame := frame)
  rw [henforced] at harrival
  have hpassive := handleDownstream_passive (s := countReceived (s.elapse dt) .net) (l := readLayers (withoutFcs frame))
    (frame := frame) hmode
  refine ⟨_, exec_frameArrival_net h, ?_, ?_, ?_, fun t' ht' hbank hsound => ?_⟩
  · rw [noticeAfter_cell, hpassive.cell]
    rfl
  · rw [noticeAfter_guards, hpassive.guards]
    rfl
  · rw [noticeAfter_guardDrops, hpassive.net]
    rfl
  · obtain rfl := Host.Outcome.next.inj ((harrival h).symm.trans ht')
    have hmirrors : Mirrored (countReceived (s.elapse dt) .net) _ _ := handleDownstream_mirrors
      (s := countReceived (s.elapse dt) .net) (frame := frame) hmode hbank hsound
    rw [noticeAfter_decisions, noticeAfter_decisions, noticeAfter_events, noticeAfter_events]
    exact ⟨hmirrors.decisions, hmirrors.shows⟩

end Sys2Proof.Proofs.Passive
end
